-- ==== Sys2Proof/Word.lean ====
section
/-! DEFINITION. The widths of the block's values (spec 00_scope R5, R8): every value is an unsigned bit vector. -/

namespace Sys2Proof

/-- A character or symbol: 8 bits (R6, R12). -/
abbrev Byte := BitVec 8

/-- `HALF`, 16 bits: one half of a Feistel block, or a round key (R5). -/
abbrev Half := BitVec 16

/-- `BLOCK`, 32 bits: the permuted domain, and the width of every register (R5, R16). -/
abbrev Word := BitVec 32

/-- `ACC`, 64 bits: the accumulator of the round function (R5). -/
abbrev Acc := BitVec 64

/-- A base-32 digit, 0 to 31 (R12). -/
abbrev Digit := BitVec 5

/-- A byte offset within the 64-byte window: the six address lines of R40. -/
abbrev Offset := BitVec 6

end Sys2Proof
end

