-- ==== Sys2Proof/Config.lean ====
section
/-! DEFINITION. What is fixed when the block is built (spec 00_scope R5, R6): the fixed constants, the open parameters, and the free values. -/

namespace Sys2Proof

namespace Config

/-- `RADIX` (R5). -/
def radix : Nat := 32

/-- `L`, the encoded string length (R5, R7). -/
def strLen : Nat := 6

/-- `N`, the source's `n`: `2^30` (R5, R7). -/
def N : Nat := 0x40000000

/-- `ROUNDS` (R5). -/
def rounds : Nat := 2

/-- `FNV_OFFSET` (R5). -/
def fnvOffset : Acc := 0xCBF29CE484222325

/-- `FNV_PRIME` (R5). -/
def fnvPrime : Acc := 0x100000001B3

/-- The most applications any walk that starts below `N` can need (42_cycle_walk R82): `2^32 - N + 1`. -/
def walkFuel : Nat := 0xC0000001

/-- `INFO.VERSION` (R2, 10_state R18). -/
def version : Byte := 0x01

end Config

/-- `ALPHABET` (R6): 32 pairwise distinct bytes, the index of a symbol being its digit value (R32).
The two proof fields are the conditions of R6 and 70_reset R115, so that no ill-formed alphabet exists in any state:
`alphabetOfBytes` is the one way in from raw bytes, and it refuses by name.
The default of `symbols` is only Lean's witness that such a sequence exists; nothing in the model reads it. -/
structure Alphabet where
  symbols : List Byte := (List.range 32).map (BitVec.ofNat 8)
  size : symbols.length = 32 := by decide
  distinct : symbols.Nodup := by decide
deriving DecidableEq, Repr, Inhabited

/-- The parameters of R6 (the constant tables of 10_state R32, and `BASE`), fixed when the block is built.
`baseBlock` is `BASE` divided by `0x40`: `BASE` is a multiple of `0x40` (R6, 20_memory R48), so this holds exactly the legal ones. -/
structure Tables where
  key0 : Half
  key1 : Half
  premultiply : Bool
  alphabet : Alphabet
  baseBlock : Nat
deriving DecidableEq, Repr

/-- A configuration as an integrator writes it down, before the check of 70_reset R115. -/
structure RawConfig where
  key0 : Half
  key1 : Half
  premultiply : Bool
  alphabet : List Byte
  base : Nat
deriving DecidableEq, Repr

namespace Config

/-- `KEY[0]`: OPEN (R6, 91_not_in_source N1). No value can be proved of it. -/
opaque key0 : Half

/-- `KEY[1]`: OPEN (R6, 91_not_in_source N1). -/
opaque key1 : Half

/-- `ALPHABET`: OPEN (R6, 91_not_in_source N2); only what `Alphabet` says can be proved of it. -/
opaque alphabet : Alphabet

/-- `BASE / 0x40`: OPEN, a platform parameter (R6). -/
opaque baseBlock : Nat

/-- A free draw (10_state R36): the `n`-th unspecified 32-bit value. Nothing constrains it. -/
opaque freeWord : Nat → Word

/-- The parameters of the built block: the keys, the alphabet and the base are open, and `FNV_PREMULTIPLY` is `false` (R6). -/
def tables : Tables :=
  { key0 := key0, key1 := key1, premultiply := false, alphabet := alphabet, baseBlock := baseBlock }

end Config

end Sys2Proof
end

