-- ==== Sys2Proof/Machine/HostSyntax.lean ====
section
/-! DEFINITION. The names of the register window (spec 10_state R16) and the host's notation (30_encoding R63). -/

namespace Sys2Proof.Machine

/-- The twelve registers of the window (R16). -/
inductive Reg where
  | info | ctrl | cmd | status | arg0 | arg1 | chrIn0 | chrIn1 | result | chrOut0 | chrOut1 | steps
deriving DecidableEq, Repr

/-- A register's byte offset from `BASE` (R16). -/
def Reg.offset : Reg → Offset
  | .info => 0x00
  | .ctrl => 0x04
  | .cmd => 0x08
  | .status => 0x0C
  | .arg0 => 0x10
  | .arg1 => 0x14
  | .chrIn0 => 0x18
  | .chrIn1 => 0x1C
  | .result => 0x20
  | .chrOut0 => 0x24
  | .chrOut1 => 0x28
  | .steps => 0x2C

/-- The register at an offset (R16); none at the reserved offsets (R31) and at offsets that are no multiple of 4. -/
def regAt (off : Offset) : Option Reg :=
  match off.toNat with
  | 0x00 => some .info
  | 0x04 => some .ctrl
  | 0x08 => some .cmd
  | 0x0C => some .status
  | 0x10 => some .arg0
  | 0x14 => some .arg1
  | 0x18 => some .chrIn0
  | 0x1C => some .chrIn1
  | 0x20 => some .result
  | 0x24 => some .chrOut0
  | 0x28 => some .chrOut1
  | 0x2C => some .steps
  | _ => none

/-- What a host write sends: a literal, or one of the temporaries `t0` to `t7` (R63). -/
inductive Src where
  | imm (v : Word)
  | temp (t : Fin 8)
deriving DecidableEq, Repr

/-- The forms of the host notation (R63). Labels are numbered. -/
inductive HostOp where
  /-- `W <reg>, <imm32>` or `W <reg>, tN`. -/
  | write (reg : Reg) (src : Src)
  /-- `R <reg> -> tN`. -/
  | read (reg : Reg) (t : Fin 8)
  /-- `BNZ tN, <mask>, <label>`. -/
  | bnz (t : Fin 8) (mask : Word) (target : Nat)
  /-- `BZ tN, <mask>, <label>`. -/
  | bz (t : Fin 8) (mask : Word) (target : Nat)
  /-- `XOR tD, tA, tB`. -/
  | xor (d a b : Fin 8)
  /-- `B <label>`. -/
  | jump (target : Nat)
  /-- `WAITIRQ`. -/
  | waitIrq
  /-- `HALT`. -/
  | halt
  /-- `<label>:`. -/
  | label (l : Nat)
deriving DecidableEq, Repr

/-- One bus transaction of the host, `(offset, value)` (R63). -/
inductive Transaction where
  | w (off : Offset) (v : Word)
  | r (off : Offset) (v : Word)
deriving DecidableEq, Repr

/-- The place of label `l` in a program, from position `at`: a list, so that a label that is missing or stands twice can be told. -/
def labelPlaces (l : Nat) : Nat → List HostOp → List Nat
  | _, [] => []
  | i, .label m :: ops => if m = l then i :: labelPlaces l (i + 1) ops else labelPlaces l (i + 1) ops
  | i, _ :: ops => labelPlaces l (i + 1) ops

/-- Where a branch to `l` goes: the one place of the label, and none when it is missing or stands twice. -/
def labelTarget (prog : List HostOp) (l : Nat) : Option Nat :=
  match labelPlaces l 0 prog with
  | [i] => some i
  | _ => none

/-- The label a form branches to, if it is a branch. -/
def HostOp.target? : HostOp → Option Nat
  | .bnz _ _ l => some l
  | .bz _ _ l => some l
  | .jump l => some l
  | .write _ _ => none
  | .read _ _ => none
  | .xor _ _ _ => none
  | .waitIrq => none
  | .halt => none
  | .label _ => none

end Sys2Proof.Machine
end

