-- ==== Sys2Proof/Syntax.lean ====
section
/-! DEFINITION. The nine commands (spec 30_encoding R57, R59), one constructor per row of spec/opcode_table.json. -/

namespace Sys2Proof

/-- A command word that is not illegal. Each carries its `LEN` nibble (R57): DEC's operand, the string length;
every other command ignores it (R58), and it is kept so that no bit of the word is lost. No other operand is in the word (R58). -/
inductive Instr where
  /-- Round function (40_round R69). -/
  | rfn (len : Nat)
  /-- Forward Feistel round (40_round R70). -/
  | rndf (len : Nat)
  /-- Inverse Feistel round (40_round R71). -/
  | rndi (len : Nat)
  /-- 32-bit forward permutation (41_permutation R75). -/
  | permf (len : Nat)
  /-- 32-bit inverse permutation (41_permutation R76). -/
  | permi (len : Nat)
  /-- Range-restricted forward permutation (42_cycle_walk R80). -/
  | walkf (len : Nat)
  /-- Range-restricted inverse permutation (42_cycle_walk R81). -/
  | walki (len : Nat)
  /-- Encode an id as a string (43_radix R89). -/
  | enc (len : Nat)
  /-- Decode a string to an id (43_radix R90). -/
  | dec (len : Nat)
deriving DecidableEq, Repr

end Sys2Proof
end

