-- ==== Sys2Proof/WellFormed.lean ====
section
/-! DEFINITION. Which terms stand for something the spec can write: commands, configurations and host programs. -/

namespace Sys2Proof

/-- The `LEN` nibble of a command (spec 30_encoding R57). -/
def Instr.len : Instr → Nat
  | .rfn n => n
  | .rndf n => n
  | .rndi n => n
  | .permf n => n
  | .permi n => n
  | .walkf n => n
  | .walki n => n
  | .enc n => n
  | .dec n => n

/-- `LEN` fits its four bits (R57). -/
def Instr.wellFormed (i : Instr) : Bool := decide (i.len < 16)

/-- The conditions of 70_reset R115 and 00_scope R6: 32 pairwise distinct bytes, and a base aligned to 64 bytes. -/
def RawConfig.wellFormed (c : RawConfig) : Bool :=
  decide (c.alphabet.length = 32) && decide c.alphabet.Nodup && decide (c.base % 0x40 = 0)

/-- Every branch of a host program goes to a label that stands exactly once in it (30_encoding R63). -/
def hostProgramWellFormed (prog : List Machine.HostOp) : Bool :=
  prog.all fun op =>
    match op.target? with
    | some l => (Machine.labelTarget prog l).isSome
    | none => true

end Sys2Proof
end

