-- ==== Sys2Proof/Decode.lean ====
section
/-! DEFINITION. Decoding and encoding command words (spec 30_encoding R56 to R62), and the opcode table as data. -/

namespace Sys2Proof

/-- Why a word is illegal (R60). -/
inductive DecodeError where
  /-- `RSV != 0`. -/
  | reservedBits
  /-- `OP` is `0x0` or `0xA` to `0xF`. -/
  | reservedOpcode
deriving DecidableEq, Repr

/-- `OP`, bits `[3:0]` (R57). -/
def opField (w : Word) : BitVec 4 := w.extractLsb' 0 4

/-- `LEN`, bits `[7:4]` (R57). -/
def lenField (w : Word) : BitVec 4 := w.extractLsb' 4 4

/-- `RSV`, bits `[31:8]` (R57). -/
def rsvField (w : Word) : BitVec 24 := w.extractLsb' 8 24

/-- Decode a command word (R59 to R62). Every word is one of the nine commands or illegal; the reserved bits are looked at first (R61). -/
def decode (w : Word) : Except DecodeError Instr :=
  if rsvField w ≠ 0#24 then .error .reservedBits
  else
    match (opField w).toNat with
    | 0x1 => .ok (.rfn (lenField w).toNat)
    | 0x2 => .ok (.rndf (lenField w).toNat)
    | 0x3 => .ok (.rndi (lenField w).toNat)
    | 0x4 => .ok (.permf (lenField w).toNat)
    | 0x5 => .ok (.permi (lenField w).toNat)
    | 0x6 => .ok (.walkf (lenField w).toNat)
    | 0x7 => .ok (.walki (lenField w).toNat)
    | 0x8 => .ok (.enc (lenField w).toNat)
    | 0x9 => .ok (.dec (lenField w).toNat)
    | _ => .error .reservedOpcode

/-- The command a decoder reads from a word whose low `nbits` bits are those of `w`, every higher bit 0.
A command is one bus word (R56), never bytes in a memory, so it goes to the decoder as it is. -/
def decodeTableWord (nbits w : Nat) : Option Instr :=
  match decode (BitVec.ofNat 32 (w % 2 ^ nbits)) with
  | .ok i => some i
  | .error _ => none

/-- The `OP` value of a command (R59). -/
def Instr.opcode : Instr → Nat
  | .rfn _ => 0x1
  | .rndf _ => 0x2
  | .rndi _ => 0x3
  | .permf _ => 0x4
  | .permi _ => 0x5
  | .walkf _ => 0x6
  | .walki _ => 0x7
  | .enc _ => 0x8
  | .dec _ => 0x9

/-- The word of a well-formed command: `OP` in `[3:0]`, `LEN` in `[7:4]`, zeros above (R57). -/
def encode (i : Instr) : Word := (0 : BitVec 24) ++ BitVec.ofNat 4 i.len ++ BitVec.ofNat 4 i.opcode

/-- The mnemonic of a command (R59), as the opcode table spells it. -/
def Instr.mnemonic : Instr → String
  | .rfn _ => "RFN"
  | .rndf _ => "RNDF"
  | .rndi _ => "RNDI"
  | .permf _ => "PERMF"
  | .permi _ => "PERMI"
  | .walkf _ => "WALKF"
  | .walki _ => "WALKI"
  | .enc _ => "ENC"
  | .dec _ => "DEC"

/-- One row of spec/opcode_table.json. -/
structure OpcodeRow where
  mnemonic : String
  mask : Word
  value : Word
deriving DecidableEq, Repr

/-- `word & mask = match` (R62). -/
def OpcodeRow.matches (r : OpcodeRow) (w : Word) : Bool := decide (w &&& r.mask = r.value)

/-- spec/opcode_table.json, row by row. -/
def opcodeTable : List OpcodeRow :=
  [ ⟨"RFN", 0xFFFFFF0F, 0x00000001⟩, ⟨"RNDF", 0xFFFFFF0F, 0x00000002⟩, ⟨"RNDI", 0xFFFFFF0F, 0x00000003⟩,
    ⟨"PERMF", 0xFFFFFF0F, 0x00000004⟩, ⟨"PERMI", 0xFFFFFF0F, 0x00000005⟩, ⟨"WALKF", 0xFFFFFF0F, 0x00000006⟩,
    ⟨"WALKI", 0xFFFFFF0F, 0x00000007⟩, ⟨"ENC", 0xFFFFFF0F, 0x00000008⟩, ⟨"DEC", 0xFFFFFF0F, 0x00000009⟩ ]

end Sys2Proof
end

