-- ==== Sys2Proof/Machine/State.lean ====
section
/-! DEFINITION. Everything the spec gives the machine (spec 10_state), as plain data, and the state after reset (R39). -/

namespace Sys2Proof.Machine

/-- `ENG` (10_state R33): the value `STATUS.BUSY` reads. -/
inductive Engine where
  | idle
  | busy
deriving DecidableEq, Repr

/-- The error codes of 60_exceptions R93. Codes 5 to 15 are never produced: they have no constructor. -/
inductive ErrCode where
  /-- 0 NONE -/
  | none
  /-- 1 ILLEGAL_COMMAND -/
  | illegalCommand
  /-- 2 OUT_OF_RANGE -/
  | outOfRange
  /-- 3 INVALID_LENGTH -/
  | invalidLength
  /-- 4 INVALID_CHARACTER -/
  | invalidCharacter
deriving DecidableEq, Repr

/-- One bus access as the ports present it (20_memory R40): `we`, the bus address, `size` (`log2` of the bytes), `be`, `wdata`. -/
structure Access where
  write : Bool
  addr : Nat
  size : BitVec 2
  be : BitVec 4
  wdata : Word
deriving DecidableEq, Repr

/-- Why the block answers an access with a bus error (20_memory R44, 70_reset R110). -/
inductive BusErrorKind where
  /-- `rst` is asserted (R110). -/
  | inReset
  /-- The size is not 4 bytes (R42, R44). -/
  | size
  /-- Some byte lanes are disabled (R42, 92_eei_decisions D7). -/
  | lanes
  /-- The offset is not a multiple of 4 (R42, R44). -/
  | misaligned
deriving DecidableEq, Repr

/-- The block's answer to an access, on `ack`, `err` and `rdata` (R40). Every answer has `ack = 1`. -/
inductive Reply where
  /-- A read: `err = 0`, and the data. -/
  | data (rdata : Word)
  /-- A write: `err = 0`, and no data. -/
  | done
  /-- Not admitted: `err = 1`, and what is on the data lines (R44 for a read; for a write the model's choice, log 8). -/
  | error (why : BusErrorKind) (rdata : Word)
deriving DecidableEq, Repr

/-- What happens next in the total order of 20_memory R50. -/
inductive Event where
  /-- The host's program runs its next operation (30_encoding R63). -/
  | hostTurn
  /-- The engine may take its completion step (10_state R35). -/
  | engineTurn
  /-- Some bus master presents an access (20_memory R41, 60_exceptions R107). -/
  | access (a : Access)
  /-- `rst` is asserted (70_reset R110). -/
  | rstAssert
  /-- `rst` is deasserted (70_reset R110). -/
  | rstDeassert
deriving DecidableEq, Repr

/-- The host agent of the notation of 30_encoding R63. It is no state of the block (10_state R17). -/
structure HostAgent where
  prog : List HostOp
  pc : Nat
  temps : Vector Word 8
  halted : Bool
  trace : List Transaction
deriving DecidableEq, Repr

/-- The whole machine. -/
structure State where
  /-- The constant tables and parameters (10_state R32, 00_scope R6): no step writes them. -/
  tables : Tables
  /-- `CTRL.IE` (R19). -/
  ie : Bool
  /-- `CMD`, the word of the last accepted command write (R20). -/
  cmd : Word
  /-- `STATUS.DONE` (R21). -/
  done : Bool
  /-- `STATUS.ERR` (R21). -/
  err : Bool
  /-- `STATUS.OVR` (R21). -/
  ovr : Bool
  /-- `STATUS.ERRCODE` (R21, R93). -/
  errcode : ErrCode
  /-- `STATUS.ERRPOS` (R21). -/
  errpos : BitVec 3
  /-- `ARG0` (R23). -/
  arg0 : Word
  /-- `ARG1` (R24). -/
  arg1 : Word
  /-- `CHR_IN0` (R25). -/
  chrIn0 : Word
  /-- `CHR_IN1` (R26). -/
  chrIn1 : Word
  /-- `RESULT` (R27). -/
  result : Word
  /-- `CHR_OUT0` (R28). -/
  chrOut0 : Word
  /-- `CHR_OUT1` (R29). -/
  chrOut1 : Word
  /-- `STEPS` (R30). -/
  steps : Word
  /-- `ENG`, which `STATUS.BUSY` reads (R33). -/
  eng : Engine
  /-- `LA0` (R33). -/
  la0 : Word
  /-- `LA1` (R33). -/
  la1 : Word
  /-- `LC0` (R33). -/
  lc0 : Word
  /-- `LC1` (R33). -/
  lc1 : Word
  /-- The level of the input `rst` (R40, R110). -/
  rst : Bool
  /-- The answer to the latest access: the outputs `ack`, `err`, `rdata` (R40). -/
  reply : Option Reply
  /-- The host agent (R63). -/
  host : HostAgent
  /-- The model's own: the events still to come, in the total order of R50. -/
  schedule : List Event
  /-- The model's own: how many free values have been drawn. -/
  draws : Nat
deriving DecidableEq, Repr

/-- Why a step stops with a fault. -/
inductive Fault where
  /-- A bus access got an error response (20_memory R44, 70_reset R110). Raised by `busAccess`.
  Safe: the block changes no state and answers the host (`present` says how); 93_implementation_defined section 2 asks for the fault. -/
  | busError (why : BusErrorKind)
deriving DecidableEq, Repr

/-- Why the model refuses to go on. -/
inductive Refusal where
  /-- A command without a meaning. No arm of `exec` raises it. Safe. -/
  | notModelled (mnemonic : String)
  /-- An alphabet that is not 32 bytes (00_scope R6, 70_reset R115). Raised by `State.build`. Safe: the hardware never runs it (60_exceptions R97). -/
  | alphabetSize
  /-- An alphabet with two equal entries (00_scope R6, R14). Raised by `State.build`. Safe, as above. -/
  | alphabetNotDistinct
  /-- A base that is no multiple of 64 (00_scope R6, 20_memory R48). Raised by `State.build`. Safe, as above. -/
  | baseMisaligned
  /-- A host program branches to a label that is missing or stands twice (30_encoding R63 gives it no meaning). Raised by `hostTurn`. Safe. -/
  | unknownLabel
deriving DecidableEq, Repr

/-- A host agent with nothing to run. -/
def HostAgent.none : HostAgent :=
  { prog := [], pc := 0, temps := Vector.replicate 8 0, halted := false, trace := [] }

/-- The state after reset (R39) of a block built with the parameters `t`, the input `rst` deasserted.
DESIGN CHOICE (log 4, 5, 12, 13): the latch, the ports, the host and the schedule, to which R39 gives no value. -/
def State.resetWith (t : Tables) : State :=
  { tables := t
    ie := false
    cmd := 0
    done := false
    err := false
    ovr := false
    errcode := .none
    errpos := 0
    arg0 := 0
    arg1 := 0
    chrIn0 := 0
    chrIn1 := 0
    result := 0
    chrOut0 := 0
    chrOut1 := 0
    steps := 0
    eng := .idle
    la0 := 0
    la1 := 0
    lc0 := 0
    lc1 := 0
    rst := false
    reply := Option.none
    host := HostAgent.none
    schedule := []
    draws := 0 }

/-- The state after reset, the open parameters left open (R6). -/
def State.reset : State := State.resetWith Config.tables

end Sys2Proof.Machine
end

