-- ==== Sys2Proof/Machine/Flags.lean ====
section
/-! DEFINITION. The words software reads of `INFO`, `CTRL` and `STATUS` (spec 10_state R18, R19, R21), the write of `STATUS` (R22), and `irq` (60_exceptions R101). -/

namespace Sys2Proof.Machine

/-- The number of an error code (60_exceptions R93). -/
def ErrCode.bits : ErrCode → BitVec 4
  | .none => 0
  | .illegalCommand => 1
  | .outOfRange => 2
  | .invalidLength => 3
  | .invalidCharacter => 4

/-- `STATUS.BUSY` (R33). -/
def State.busy (s : State) : Bool := decide (s.eng = .busy)

/-- `STATUS` as a read returns it (R21): the fields in place, the reserved bits 0. -/
def State.statusWord (s : State) : Word :=
  (0 : BitVec 17) ++ s.errpos ++ s.errcode.bits ++ (0 : BitVec 4)
    ++ BitVec.ofBool s.ovr ++ BitVec.ofBool s.err ++ BitVec.ofBool s.done ++ BitVec.ofBool s.busy

/-- `CTRL` as a read returns it (R19). -/
def State.ctrlWord (s : State) : Word := (0 : BitVec 31) ++ BitVec.ofBool s.ie

/-- `INFO` (R18): `VERSION`, reserved, `PREMUL`, `RADIX`, `ROUNDS`, `LEN`. -/
def infoWord (t : Tables) : Word :=
  Config.version ++ (0 : BitVec 7) ++ BitVec.ofBool t.premultiply
    ++ BitVec.ofNat 8 Config.radix ++ BitVec.ofNat 4 Config.rounds ++ BitVec.ofNat 4 Config.strLen

/-- A write of `w` to `STATUS` (R22): 1 clears `DONE`, `ERR`, `OVR`; nothing else changes. This is also how a host acknowledges a completion (60_exceptions R99). -/
def State.clearStatus (w : Word) (s : State) : State :=
  { s with
    done := s.done && !w.getLsbD 1
    err := s.err && !w.getLsbD 2
    ovr := s.ovr && !w.getLsbD 3 }

/-- The interrupt output (60_exceptions R101), a level: a function of the state at every instant. -/
def State.irq (s : State) : Bool := s.ie && s.done

end Sys2Proof.Machine
end

