-- ==== Sys2Proof/Machine/Operands.lean ====
section
/-! DEFINITION. Packing and operand assembly (spec 30_encoding R58, 43_radix R88): every operand comes from the latch. -/

namespace Sys2Proof.Machine

/-- `v[15:0]`. -/
def lowHalf (v : Word) : Half := v.extractLsb' 0 16

/-- `v[31:16]`. -/
def highHalf (v : Word) : Half := v.extractLsb' 16 16

/-- `{hi, lo}` (00_scope R8). -/
def packHalves (hi lo : Half) : Word := hi ++ lo

/-- `zext_32` of a half (R8). -/
def zextHalf (v : Half) : Word := v.setWidth 32

/-- Byte `j` of a word, `v[8j+7:8j]`. -/
def byteOf (v : Word) (j : Nat) : Byte := v.extractLsb' (8 * j) 8

/-- `{b3, b2, b1, b0}`. -/
def packBytes (b3 b2 b1 b0 : Byte) : Word := b3 ++ b2 ++ b1 ++ b0

/-- `x` of RFN. -/
def State.opX (s : State) : Half := lowHalf s.la0

/-- `k` of RFN, RNDF and RNDI. -/
def State.opK (s : State) : Half := lowHalf s.la1

/-- `l` of RNDF and RNDI. -/
def State.opL (s : State) : Half := lowHalf s.la0

/-- `r` of RNDF and RNDI. -/
def State.opR (s : State) : Half := highHalf s.la0

/-- `x` of PERMF and PERMI; `id` or `v` of WALKF, WALKI and ENC. -/
def State.opValue (s : State) : Word := s.la0

/-- The characters `c[0]` to `c[7]` of DEC (R58, R88). -/
def State.opChars (s : State) : List Byte :=
  [byteOf s.lc0 0, byteOf s.lc0 1, byteOf s.lc0 2, byteOf s.lc0 3,
   byteOf s.lc1 0, byteOf s.lc1 1, byteOf s.lc1 2, byteOf s.lc1 3]

end Sys2Proof.Machine
end

