-- ==== Sys2Proof/Machine/Ops.lean ====
section
/-! DEFINITION. The shared operations: completing a command with or without an error, accepting a command write, the register window, bus accesses, reset, and building the block. -/

namespace Sys2Proof.Machine

/-- Go on with a next state; a fault or a refusal stays. -/
def andThen (o : Host.Outcome State Fault Refusal) (f : State → Host.Outcome State Fault Refusal) :
    Host.Outcome State Fault Refusal :=
  match o with
  | .next s => f s
  | .fault r => .fault r
  | .refused r => .refused r

/-! ### Completion (10_state R35, 30_encoding R61, 60_exceptions R96) -/

/-- What `Exec` returns (30_encoding R61): `(RESULT, CHR_OUT0, CHR_OUT1, STEPS, ERRCODE, ERRPOS)`. -/
structure Completion where
  result : Word
  chrOut0 : Word
  chrOut1 : Word
  steps : Word
  code : ErrCode
  pos : BitVec 3
deriving DecidableEq, Repr

/-- `Ok(res, co0, co1, steps)` (R61). -/
def Completion.ok (res co0 co1 steps : Word) : Completion :=
  { result := res, chrOut0 := co0, chrOut1 := co1, steps := steps, code := .none, pos := 0 }

/-- `Err(code, pos)` (R61, R96): every result register 0. -/
def Completion.err (code : ErrCode) (pos : BitVec 3) : Completion :=
  { result := 0, chrOut0 := 0, chrOut1 := 0, steps := 0, code := code, pos := pos }

/-- The completion step's writes (10_state R35), all at once. -/
def State.complete (c : Completion) (s : State) : State :=
  { s with
    result := c.result
    chrOut0 := c.chrOut0
    chrOut1 := c.chrOut1
    steps := c.steps
    errcode := c.code
    errpos := c.pos
    err := decide (c.code ≠ .none)
    done := true
    eng := .idle }

/-- Taking an error (60_exceptions R96, R98): the completion step with `Err(code, pos)`. The block saves nothing else, and there is no vector, no mode and no return;
the host acknowledges through `State.clearStatus` or its next accepted command (R99). -/
def State.raiseError (code : ErrCode) (pos : BitVec 3) (s : State) : State := s.complete (.err code pos)

/-- Complete, where a walk gave a value. A walk that has not ended within its fuel has no value: the engine goes on being busy (log 11; no command reaches this, 42_cycle_walk R82). -/
def State.finish (c : Option Completion) (s : State) : State :=
  match c with
  | some c => s.complete c
  | none => s

/-- An illegal word's completion (30_encoding R60): error 1. -/
def illegalCommand (s : State) : Host.Outcome State Fault Refusal := .next (s.raiseError .illegalCommand 0)

/-! ### Command acceptance (10_state R34) -/

/-- An accepted command write of `w`. The four result registers become unspecified (R34, R36): free draws. -/
def State.accept (w : Word) (s : State) : State :=
  { s with
    cmd := w
    la0 := s.arg0
    la1 := s.arg1
    lc0 := s.chrIn0
    lc1 := s.chrIn1
    eng := .busy
    done := false
    err := false
    errcode := .none
    errpos := 0
    result := Config.freeWord s.draws
    chrOut0 := Config.freeWord (s.draws + 1)
    chrOut1 := Config.freeWord (s.draws + 2)
    steps := Config.freeWord (s.draws + 3)
    draws := s.draws + 4 }

/-- A command write made while busy is dropped (R34). -/
def State.overrun (s : State) : State := { s with ovr := true }

/-- A host write of `w` to `CMD` (R34). -/
def State.requestCommand (w : Word) (s : State) : State :=
  match s.eng with
  | .busy => s.overrun
  | .idle => s.accept w

/-- The command word `w` accepted, whatever ran before, with the engine to move next: what stands before a command's own completion step. -/
def State.loadCommand (w : Word) (s : State) : State :=
  { s.accept w with rst := false, schedule := .engineTurn :: s.schedule }

/-! ### The register window (10_state R16 to R31, 20_memory R42) -/

/-- The registers that a read finds unspecified while busy (R36). -/
def Reg.isResult : Reg → Bool
  | .result => true
  | .chrOut0 => true
  | .chrOut1 => true
  | .steps => true
  | .info => false
  | .ctrl => false
  | .cmd => false
  | .status => false
  | .arg0 => false
  | .arg1 => false
  | .chrIn0 => false
  | .chrIn1 => false

/-- A register's value, where it is defined. -/
def State.regValue (s : State) : Reg → Word
  | .info => infoWord s.tables
  | .ctrl => s.ctrlWord
  | .cmd => s.cmd
  | .status => s.statusWord
  | .arg0 => s.arg0
  | .arg1 => s.arg1
  | .chrIn0 => s.chrIn0
  | .chrIn1 => s.chrIn1
  | .result => s.result
  | .chrOut0 => s.chrOut0
  | .chrOut1 => s.chrOut1
  | .steps => s.steps

/-- One more free value has been drawn. -/
def State.drawn (s : State) : State := { s with draws := s.draws + 1 }

/-- An admitted read at `off`: the value, and the state after it. Only the count of free draws can change (R36, R47). -/
def State.readOffset (off : Offset) (s : State) : Word × State :=
  match regAt off with
  | none => (0, s)
  | some r => if s.busy && r.isResult then (Config.freeWord s.draws, s.drawn) else (s.regValue r, s)

/-- An admitted write of `v` to a register (20_memory R42). -/
def State.writeReg (r : Reg) (v : Word) (s : State) : State :=
  match r with
  | .ctrl => { s with ie := v.getLsbD 0 }
  | .cmd => s.requestCommand v
  | .status => s.clearStatus v
  | .arg0 => { s with arg0 := v }
  | .arg1 => { s with arg1 := v }
  | .chrIn0 => { s with chrIn0 := v }
  | .chrIn1 => { s with chrIn1 := v }
  | .info => s
  | .result => s
  | .chrOut0 => s
  | .chrOut1 => s
  | .steps => s

/-- An admitted write of `v` at `off`; the reserved offsets ignore it (R31). -/
def State.writeOffset (off : Offset) (v : Word) (s : State) : State :=
  match regAt off with
  | none => s
  | some r => s.writeReg r v

/-! ### Bus accesses (20_memory R40 to R44, 70_reset R110) -/

/-- `BASE` (00_scope R6). -/
def baseOf (t : Tables) : Nat := 0x40 * t.baseBlock

/-- The offset of a bus address within the window; none outside it (R41). -/
def windowOffset (t : Tables) (addr : Nat) : Option Offset :=
  if baseOf t ≤ addr ∧ addr < baseOf t + 0x40 then some (BitVec.ofNat 6 (addr - baseOf t)) else none

/-- Why an access is not admitted, if it is not (R42, R44, R110). All four byte lanes must be enabled, for a read as for a write (R42, 92_eei_decisions D7; log 9). -/
def State.busProblem (s : State) (off : Offset) (a : Access) : Option BusErrorKind :=
  if s.rst then some .inReset
  else if a.size ≠ 2#2 then some .size
  else if off.toNat % 4 ≠ 0 then some .misaligned
  else if a.be ≠ 15#4 then some .lanes
  else none

/-- The block's answer to an access at `off`, and the block after it. An access that is not admitted changes nothing, and a read of that kind reads 0 (R44).
DESIGN CHOICE (log 8): a write answered with an error has 0 on the data lines too; R44 gives the 0 for a read only. -/
def State.present (off : Offset) (a : Access) (s : State) : Reply × State :=
  match s.busProblem off a with
  | some why => (.error why 0, s)
  | none =>
    if a.write then (.done, s.writeOffset off a.wdata)
    else (.data (s.readOffset off).1, (s.readOffset off).2)

/-- The outputs `ack`, `err`, `rdata` show an answer. -/
def State.answered (r : Reply) (s : State) : State := { s with reply := some r }

/-- One access by a bus master. Outside the window it never reaches the block (R41); an error response is a fault of the access (93_implementation_defined section 2). -/
def busAccess (a : Access) (s : State) : Host.Outcome State Fault Refusal :=
  match windowOffset s.tables a.addr with
  | none => .next s
  | some off =>
    match (s.present off a).1 with
    | .error why _ => .fault (.busError why)
    | .data v => .next ((s.present off a).2.answered (.data v))
    | .done => .next ((s.present off a).2.answered .done)

/-- The output `ack` (R40). -/
def State.ack (s : State) : Bool := s.reply.isSome

/-- The output `rdata` (R40), where the latest answer has data. -/
def State.rdata? (s : State) : Option Word :=
  match s.reply with
  | some (.data v) => some v
  | some (.error _ v) => some v
  | some .done => none
  | none => none

/-- `MemRead(BASE + off, 4)` (00_scope R10). -/
def memRead (t : Tables) (off : Offset) : Access :=
  { write := false, addr := baseOf t + off.toNat, size := 2#2, be := 15#4, wdata := 0 }

/-- `MemWrite(BASE + off, 4, v)` (00_scope R10). -/
def memWrite (t : Tables) (off : Offset) (v : Word) : Access :=
  { write := true, addr := baseOf t + off.toNat, size := 2#2, be := 15#4, wdata := v }

/-! ### Reset (70_reset R110 to R112, 10_state R39) -/

/-- `rst` is asserted: every register takes its reset value and a command in progress is abandoned (R111, R112).
The tables stay (R111); the latch becomes unspecified, four free draws (R39); the host agent, the schedule and the count of draws are not the block's. -/
def State.assertReset (s : State) : State :=
  { State.resetWith s.tables with
    la0 := Config.freeWord s.draws
    la1 := Config.freeWord (s.draws + 1)
    lc0 := Config.freeWord (s.draws + 2)
    lc1 := Config.freeWord (s.draws + 3)
    rst := true
    host := s.host
    schedule := s.schedule
    draws := s.draws + 4 }

/-- `rst` is deasserted (R110). -/
def State.deassertReset (s : State) : State := { s with rst := false }

/-! ### Building the block (00_scope R6, 70_reset R115) -/

/-- An alphabet from raw bytes, refused by name where it is ill-formed. -/
def alphabetOfBytes (bs : List Byte) : Except Refusal Alphabet :=
  if h : bs.length = 32 then
    if d : bs.Nodup then .ok { symbols := bs, size := h, distinct := d } else .error .alphabetNotDistinct
  else .error .alphabetSize

/-- The block built with a configuration, after reset; an ill-formed configuration is refused (R6, R14, R115). -/
def State.build (c : RawConfig) : Host.Outcome State Fault Refusal :=
  match alphabetOfBytes c.alphabet with
  | .error r => .refused r
  | .ok a =>
    if c.base % 0x40 = 0 then
      .next (State.resetWith
        { key0 := c.key0, key1 := c.key1, premultiply := c.premultiply, alphabet := a, baseBlock := c.base / 0x40 })
    else .refused .baseMisaligned

end Sys2Proof.Machine
end

