-- ==== Sys2Proof/Machine/Round.lean ====
section
/-! DEFINITION. The round function, the Feistel round and its inverse (spec 40_round R65 to R68), and RFN, RNDF, RNDI (R69 to R71). -/

namespace Sys2Proof.Machine

/-- One step of the round function: multiply by the FNV prime with 64-bit wraparound, then XOR the byte into the low 8 bits (R65). -/
def fnvStep (acc : Acc) (b : Byte) : Acc := (acc * Config.fnvPrime) ^^^ b.setWidth 64

/-- Where the accumulator starts: the offset basis (R65), with one more multiply when `FNV_PREMULTIPLY` is true (R66). -/
def fnvStart (premultiply : Bool) : Acc :=
  if premultiply then Config.fnvOffset * Config.fnvPrime else Config.fnvOffset

/-- `[low(x), high(x), low(k), high(k)]` (R65). -/
def roundBytes (x k : Half) : List Byte :=
  [x.extractLsb' 0 8, x.extractLsb' 8 8, k.extractLsb' 0 8, k.extractLsb' 8 8]

/-- `F(x, k)` (R65, R66). -/
def roundFn (premultiply : Bool) (x k : Half) : Half :=
  ((roundBytes x k).foldl fnvStep (fnvStart premultiply)).extractLsb' 0 16

/-- `RoundF(l, r, k)` (R67). -/
def roundF (premultiply : Bool) (l r k : Half) : Half × Half := (r, roundFn premultiply r k ^^^ l)

/-- `RoundI(l', r', k)` (R68). -/
def roundI (premultiply : Bool) (l r k : Half) : Half × Half := (roundFn premultiply l k ^^^ r, l)

/-- RFN (R69). -/
def execRfn (s : State) : Host.Outcome State Fault Refusal :=
  .next (s.complete (.ok (zextHalf (roundFn s.tables.premultiply s.opX s.opK)) 0 0 0))

/-- RNDF (R70): `RESULT = {r', l'}`. -/
def execRndf (s : State) : Host.Outcome State Fault Refusal :=
  let p := roundF s.tables.premultiply s.opL s.opR s.opK
  .next (s.complete (.ok (packHalves p.2 p.1) 0 0 0))

/-- RNDI (R71): `RESULT = {r, l}`. -/
def execRndi (s : State) : Host.Outcome State Fault Refusal :=
  let p := roundI s.tables.premultiply s.opL s.opR s.opK
  .next (s.complete (.ok (packHalves p.2 p.1) 0 0 0))

end Sys2Proof.Machine
end

