-- ==== Sys2Proof/Machine/Permutation.lean ====
section
/-! DEFINITION. The two-round permutation of 32-bit values and its inverse (spec 41_permutation R73, R74), and PERMF, PERMI (R75, R76). -/

namespace Sys2Proof.Machine

/-- The round keys "in forward order" (R73). -/
def keysOf (t : Tables) : List Half := [t.key0, t.key1]

/-- One forward round on the pair `(l, r)`. -/
def stepF (t : Tables) (p : Half × Half) (k : Half) : Half × Half := roundF t.premultiply p.1 p.2 k

/-- One inverse round on the pair `(l, r)`. -/
def stepI (t : Tables) (p : Half × Half) (k : Half) : Half × Half := roundI t.premultiply p.1 p.2 k

/-- `(low16, high16)` of a value (R73). -/
def splitHalves (x : Word) : Half × Half := (lowHalf x, highHalf x)

/-- "reassemble `low16 | high16 << 16`": `{r, l}` (R73). -/
def joinHalves (p : Half × Half) : Word := packHalves p.2 p.1

/-- `Encode32(x)` (R73). -/
def encode32 (t : Tables) (x : Word) : Word := joinHalves ((keysOf t).foldl (stepF t) (splitHalves x))

/-- `Decode32(y)` (R74): the keys in reverse order. -/
def decode32 (t : Tables) (y : Word) : Word := joinHalves ((keysOf t).reverse.foldl (stepI t) (splitHalves y))

/-- PERMF (R75): no range check. -/
def execPermf (s : State) : Host.Outcome State Fault Refusal :=
  .next (s.complete (.ok (encode32 s.tables s.opValue) 0 0 1))

/-- PERMI (R76): no range check. -/
def execPermi (s : State) : Host.Outcome State Fault Refusal :=
  .next (s.complete (.ok (decode32 s.tables s.opValue) 0 0 1))

end Sys2Proof.Machine
end

