-- ==== Sys2Proof/Machine/Walk.lean ====
section
/-! DEFINITION. Cycle walking (spec 42_cycle_walk R78, R79), and WALKF, WALKI (R80, R81). -/

namespace Sys2Proof.Machine

/-- A 32-bit value is below `N` (00_scope R7). -/
def inRange (v : Word) : Bool := decide (v.toNat < Config.N)

/-- A walk (R78, R79): apply `f`, count it, and stop at the first value below `N`. `f` is applied at least once.
The fuel bounds the applications (R82, log 11); a walk that has not ended within it has no value. -/
def walk (f : Word → Word) : (fuel : Nat) → (w : Word) → (s : Nat) → Option (Word × Nat)
  | 0, _, _ => none
  | fuel + 1, w, s => if inRange (f w) then some (f w, s + 1) else walk f fuel (f w) (s + 1)

/-- `WalkF(v)` (R78). -/
def walkF (t : Tables) (v : Word) : Option (Word × Nat) := walk (encode32 t) Config.walkFuel v 0

/-- `WalkI(v)` (R79). -/
def walkI (t : Tables) (v : Word) : Option (Word × Nat) := walk (decode32 t) Config.walkFuel v 0

/-- `Ok(w, 0, 0, s)` of a walk's value (R80, R81, 43_radix R90). -/
def walkCompletion (r : Option (Word × Nat)) : Option Completion :=
  r.map fun p => .ok p.1 0 0 (BitVec.ofNat 32 p.2)

/-- WALKF (R80): error 2 before any walk step when the operand is not below `N`. -/
def execWalkf (s : State) : Host.Outcome State Fault Refusal :=
  .next (s.finish
    (if inRange s.opValue then walkCompletion (walkF s.tables s.opValue) else some (.err .outOfRange 0)))

/-- WALKI (R81): the same check as WALKF. -/
def execWalki (s : State) : Host.Outcome State Fault Refusal :=
  .next (s.finish
    (if inRange s.opValue then walkCompletion (walkI s.tables s.opValue) else some (.err .outOfRange 0)))

end Sys2Proof.Machine
end

