-- ==== Sys2Proof/Machine/Radix.lean ====
section
/-! DEFINITION. The radix-32 codec (spec 43_radix R84 to R87), and ENC, DEC (R89, R90). -/

namespace Sys2Proof.Machine

/-- The digits of `v` at `n` positions, lowest first (R84): `v mod 32`, then `v div 32`, until `v` is 0; every position left over holds the zero digit. -/
def digitsFrom : (n : Nat) → (v : Nat) → List Digit
  | 0, _ => []
  | n + 1, v =>
    if v = 0 then List.replicate (n + 1) 0
    else BitVec.ofNat 5 (v % Config.radix) :: digitsFrom n (v / Config.radix)

/-- `Digits(v)` (R84). -/
def digits (v : Word) : List Digit := digitsFrom Config.strLen v.toNat

/-- `ALPHABET[d]` (R85). -/
def symbolOf (a : Alphabet) (d : Digit) : Byte :=
  a.symbols[d.toNat]'(by rw [a.size]; exact d.isLt)

/-- `Chars(v)` (R85): the first character carries the least-significant digit. -/
def chars (a : Alphabet) (v : Word) : List Byte := (digits v).map (symbolOf a)

/-- The place of a byte in a list, counted from `i`. -/
def placeOf (c : Byte) : (i : Nat) → List Byte → Option Nat
  | _, [] => none
  | i, b :: bs => if b = c then some i else placeOf c (i + 1) bs

/-- `Index(c)` (R86): exact byte values, no case folding. -/
def indexOf (a : Alphabet) (c : Byte) : Option Digit := (placeOf c 0 a.symbols).map (BitVec.ofNat 5)

/-- `Value(d)` (R87): from the last position down, `v * 32 + d[i]`. -/
def valueOf (ds : List Digit) : Nat := ds.foldr (fun d v => v * Config.radix + d.toNat) 0

/-- DEC's check of the characters from position `i` up (R90): their digits, or the lowest position whose byte is not in the alphabet. -/
def scanChars (a : Alphabet) : (i : Nat) → List Byte → Except Nat (List Digit)
  | _, [] => .ok []
  | i, c :: cs =>
    match indexOf a c with
    | none => .error i
    | some d =>
      match scanChars a (i + 1) cs with
      | .ok ds => .ok (d :: ds)
      | .error j => .error j

/-- `CHR_OUT0` of a string (R88). -/
def chrOut0Of (c : List Byte) : Word := packBytes (c.getD 3 0) (c.getD 2 0) (c.getD 1 0) (c.getD 0 0)

/-- `CHR_OUT1` of a string (R88): `{0x0000, c[5], c[4]}`. -/
def chrOut1Of (c : List Byte) : Word := packBytes 0 0 (c.getD 5 0) (c.getD 4 0)

/-- ENC's `Ok` tuple (R89). -/
def encCompletion (a : Alphabet) (p : Word × Nat) : Completion :=
  .ok p.1 (chrOut0Of (chars a p.1)) (chrOut1Of (chars a p.1)) (BitVec.ofNat 32 p.2)

/-- ENC (R89): error 2 before any walk step when the id is not below `N`. -/
def execEnc (s : State) : Host.Outcome State Fault Refusal :=
  .next (s.finish
    (if inRange s.opValue then (walkF s.tables s.opValue).map (encCompletion s.tables.alphabet)
     else some (.err .outOfRange 0)))

/-- What DEC completes with (R90): the length, then the characters, then the walk. -/
def decCompletion (len : Nat) (s : State) : Option Completion :=
  if len ≠ Config.strLen then some (.err .invalidLength 0)
  else
    match scanChars s.tables.alphabet 0 (s.opChars.take Config.strLen) with
    | .error i => some (.err .invalidCharacter (BitVec.ofNat 3 i))
    | .ok ds => walkCompletion (walkI s.tables (BitVec.ofNat 32 (valueOf ds)))

/-- DEC (R90). -/
def execDec (len : Nat) (s : State) : Host.Outcome State Fault Refusal := .next (s.finish (decCompletion len s))

end Sys2Proof.Machine
end

