-- ==== Sys2Proof/Machine/Dispatch.lean ====
section
/-! DEFINITION. `Exec` (spec 30_encoding R61): one arm per command. -/

namespace Sys2Proof.Machine

def exec (i : Instr) (s : State) : Host.Outcome State Fault Refusal :=
  match i with
  | .rfn _ => Sys2Proof.Machine.execRfn s
  | .rndf _ => Sys2Proof.Machine.execRndf s
  | .rndi _ => Sys2Proof.Machine.execRndi s
  | .permf _ => Sys2Proof.Machine.execPermf s
  | .permi _ => Sys2Proof.Machine.execPermi s
  | .walkf _ => Sys2Proof.Machine.execWalkf s
  | .walki _ => Sys2Proof.Machine.execWalki s
  | .enc _ => Sys2Proof.Machine.execEnc s
  | .dec len => Sys2Proof.Machine.execDec len s

end Sys2Proof.Machine
end

