-- ==== Sys2Proof/Machine/HostProgram.lean ====
section
/-! DEFINITION. The host agent runs the notation of spec 30_encoding R63; the pseudo-operations of R64 expand into it. -/

namespace Sys2Proof.Machine

/-- The value a write sends (R63). -/
def HostAgent.source (h : HostAgent) : Src → Word
  | .imm v => v
  | .temp t => h.temps[t]

/-- Go on with the next operation. -/
def HostAgent.advance (h : HostAgent) : HostAgent := { h with pc := h.pc + 1 }

/-- Record a transaction (R63). -/
def HostAgent.record (x : Transaction) (h : HostAgent) : HostAgent := { h with trace := h.trace ++ [x] }

/-- `tN <- v`. -/
def HostAgent.setTemp (t : Fin 8) (v : Word) (h : HostAgent) : HostAgent := { h with temps := h.temps.set t v }

/-- A new host agent; the block is as before. -/
def State.withHost (h : HostAgent) (s : State) : State := { s with host := h }

/-- After an admitted write by the host's program. -/
def hostWrote (r : Reg) (v : Word) (s : State) : State := s.withHost (s.host.advance.record (.w r.offset v))

/-- After an admitted read by the host's program: the data goes to `tN`. -/
def hostRead (r : Reg) (t : Fin 8) (s : State) : State :=
  match s.rdata? with
  | some v => s.withHost ((s.host.advance.setTemp t v).record (.r r.offset v))
  | none => s

/-- Go to a label (R63). A label that is missing or stands twice gives no place to go. -/
def hostJump (l : Nat) (s : State) : Host.Outcome State Fault Refusal :=
  match labelTarget s.host.prog l with
  | some i => .next (s.withHost { s.host with pc := i })
  | none => .refused .unknownLabel

/-- Branch or go on. -/
def hostBranch (taken : Bool) (l : Nat) (s : State) : Host.Outcome State Fault Refusal :=
  if taken then hostJump l s else .next (s.withHost s.host.advance)

/-- One operation of the host's program (R63). Only the first two access the bus. -/
def hostOp (op : HostOp) (s : State) : Host.Outcome State Fault Refusal :=
  match op with
  | .write r src =>
    andThen (busAccess (memWrite s.tables r.offset (s.host.source src)) s)
      fun t => .next (hostWrote r (s.host.source src) t)
  | .read r d => andThen (busAccess (memRead s.tables r.offset) s) fun t => .next (hostRead r d t)
  | .bnz t mask l => hostBranch (decide (s.host.temps[t] &&& mask ≠ 0)) l s
  | .bz t mask l => hostBranch (decide (s.host.temps[t] &&& mask = 0)) l s
  | .xor d a b => .next (s.withHost (s.host.advance.setTemp d (s.host.temps[a] ^^^ s.host.temps[b])))
  | .jump l => hostJump l s
  | .waitIrq => if s.irq then .next (s.withHost s.host.advance) else .next s
  | .halt => .next (s.withHost { s.host with halted := true })
  | .label _ => .next (s.withHost s.host.advance)

/-- The host's turn. A program that has halted, or has no operation left, does nothing. -/
def hostTurn (s : State) : Host.Outcome State Fault Refusal :=
  if s.host.halted then .next s
  else
    match s.host.prog[s.host.pc]? with
    | none => .next s
    | some op => hostOp op s

/-! ### Pseudo-operations (R64) -/

/-- The pseudo-operations of R64. -/
inductive Pseudo where
  | poll (t : Fin 8)
  | run (op : Instr) (a0 : Src)
  | runk (op : Instr) (a0 a1 : Src)
  | encode (id : Src)
  | decode (c0 c1 : Src)
  | ack
deriving DecidableEq, Repr

/-- A line of a host program. -/
inductive Line where
  | op (o : HostOp)
  | pseudo (p : Pseudo)
deriving DecidableEq, Repr

/-- `POLL tN` with the label `p`: read `STATUS` until `BUSY = 0` (R64). -/
def pollOps (p : Nat) (t : Fin 8) : List HostOp := [.label p, .read .status t, .bnz t 0x1 p]

/-- A pseudo-operation's expansion (R64); `p` is the label its `POLL` takes. -/
def Pseudo.expand (p : Nat) : Pseudo → List HostOp
  | .poll t => pollOps p t
  | .run op a0 => [.write .arg0 a0, .write .cmd (.imm (Sys2Proof.encode op))] ++ pollOps p 7
  | .runk op a0 a1 =>
    [.write .arg0 a0, .write .arg1 a1, .write .cmd (.imm (Sys2Proof.encode op))] ++ pollOps p 7
  | .encode id =>
    [.write .arg0 id, .write .cmd (.imm (Sys2Proof.encode (.enc 0)))] ++ pollOps p 7
      ++ [.read .result 0, .read .chrOut0 1, .read .chrOut1 2]
  | .decode c0 c1 =>
    [.write .chrIn0 c0, .write .chrIn1 c1, .write .cmd (.imm 0x00000069)] ++ pollOps p 7 ++ [.read .result 0]
  | .ack => [.write .status (.imm 0x0000000E)]

/-- A whole program; its pseudo-operations take the labels from `p` up, one each. -/
def assemble : (p : Nat) → List Line → List HostOp
  | _, [] => []
  | p, .op o :: ls => o :: assemble p ls
  | p, .pseudo q :: ls => q.expand p ++ assemble (p + 1) ls

end Sys2Proof.Machine
end

