-- ==== Sys2Proof/Machine/Engine.lean ====
section
/-! DEFINITION. The engine's step (spec 10_state R35) and what each event of the total order does (20_memory R50). -/

namespace Sys2Proof.Machine

/-- The completion step's `Exec` (30_encoding R61): the command in `CMD`, or error 1 for an illegal word (R60). -/
def runCommand (s : State) : Host.Outcome State Fault Refusal :=
  match decode s.cmd with
  | .ok i => exec i s
  | .error _ => illegalCommand s

/-- The engine's turn (10_state R35): while busy, its one step; while idle, none. No completion step is taken while `rst` is asserted (70_reset R112). -/
def engineTurn (s : State) : Host.Outcome State Fault Refusal :=
  if s.rst then .next s
  else
    match s.eng with
    | .busy => runCommand s
    | .idle => .next s

/-- One event. -/
def handle (e : Event) (s : State) : Host.Outcome State Fault Refusal :=
  match e with
  | .hostTurn => hostTurn s
  | .engineTurn => engineTurn s
  | .access a => busAccess a s
  | .rstAssert => .next s.assertReset
  | .rstDeassert => .next s.deassertReset

/-- The next event is taken off the schedule. -/
def State.rest (s : State) : State := { s with schedule := s.schedule.tail }

/-- The state that the next event sees and the event: the engine's turn when the schedule has run out, so that every accepted command completes (R35, 70_reset R123). -/
def nextEvent (s : State) : Event × State :=
  match s.schedule with
  | [] => (.engineTurn, s)
  | e :: _ => (e, s.rest)

/-- Reference timing (70_reset R124), informative: the clock cycles from acceptance to completion of a command that completes with `c`. Nothing in the model uses it. -/
def referenceCycles (i : Option Instr) (c : Completion) : Nat :=
  match c.code, i with
  | .none, some (.permf _) => 1 + c.steps.toNat
  | .none, some (.permi _) => 1 + c.steps.toNat
  | .none, some (.walkf _) => 1 + c.steps.toNat
  | .none, some (.walki _) => 1 + c.steps.toNat
  | .none, some (.enc _) => 1 + c.steps.toNat
  | .none, some (.dec _) => 1 + c.steps.toNat
  | _, _ => 1

end Sys2Proof.Machine
end

