-- ==== Sys2Proof/Machine/Step.lean ====
section
/-! DEFINITION. One step of the machine: the next event of the total order (spec 20_memory R50). -/

namespace Sys2Proof.Machine

/-- One step. -/
def step (s : State) : Host.Outcome State Fault Refusal := handle (nextEvent s).1 (nextEvent s).2

/-- The command whose bits are `w` accepted, and its completion step next (log 3). Every bit above `nbits` is 0. -/
def State.withFetchWord (s : State) (nbits w : Nat) : State := s.loadCommand (BitVec.ofNat 32 (w % 2 ^ nbits))

end Sys2Proof.Machine
end

