-- ==== Sys2Proof/Safety.lean ====
section
/-! DEFINITION. The terms that claims about the machine are stated in: what a completed command leaves, what a walk's value is, which states are consistent, what the next step does to the block, and which runs are safe. -/

namespace Sys2Proof.Machine

/-! ### What a command leaves -/

/-- The state after a command that completed without an error (spec 10_state R35, 30_encoding R61): these nine pieces of state are written, and no other. -/
def State.succeeded (res co0 co1 steps : Word) (s : State) : State :=
  { s with
    result := res
    chrOut0 := co0
    chrOut1 := co1
    steps := steps
    errcode := .none
    errpos := 0
    err := false
    done := true
    eng := .idle }

/-- The state after a command that completed with an error (60_exceptions R96): every result register 0, and nothing else than these nine pieces of state written. -/
def State.failed (code : ErrCode) (pos : BitVec 3) (s : State) : State :=
  { s with
    result := 0
    chrOut0 := 0
    chrOut1 := 0
    steps := 0
    errcode := code
    errpos := pos
    err := true
    done := true
    eng := .idle }

/-- `w` is the value and `n` the step count of the walk of `f` from `v` (42_cycle_walk R78, R79): the first value below `N` among `f v`, `f (f v)`, …. -/
structure WalkEnds (f : Word → Word) (v w : Word) (n : Nat) : Prop where
  atLeastOnce : 1 ≤ n
  value : f^[n] v = w
  below : w.toNat < 0x40000000
  first : ∀ j, 1 ≤ j → j < n → 0x40000000 ≤ (f^[j] v).toNat

/-- The six characters DEC reads (30_encoding R58), each with its digit. -/
def charsAre (s : State) (ds : Fin 6 → Digit) : Prop :=
  ∀ i : Fin 6, (s.opChars)[i.val]? = some (symbolOf s.tables.alphabet (ds i))

/-- `{d[5], d[4], d[3], d[2], d[1], d[0]}` with two zero bits above (43_radix R87). -/
def packDigits (ds : Fin 6 → Digit) : Word :=
  (0 : BitVec 2) ++ ds 5 ++ ds 4 ++ ds 3 ++ ds 2 ++ ds 1 ++ ds 0

/-! ### Consistent states -/

/-- What holds of the registers in every state a run reaches. -/
structure Consistent (s : State) : Prop where
  /-- `BUSY = 1` implies `DONE = 0` and `ERR = 0` (10_state R21). -/
  busyFlags : s.eng = .busy → s.done = false ∧ s.err = false
  /-- While busy the error report is clear (R34). -/
  busyReport : s.eng = .busy → s.errcode = .none ∧ s.errpos = 0
  /-- `ERR` reports an error code (R35). -/
  errHasCode : s.err = true → s.errcode ≠ .none
  /-- `ERRPOS` is 0 unless the code is 4 (R21). -/
  posOnlyForChar : s.errcode ≠ .invalidCharacter → s.errpos = 0
  /-- A character position is 0 to 5 (60_exceptions R93). -/
  posBound : s.errpos.toNat ≤ 5
  /-- No command runs while `rst` is asserted (70_reset R112). -/
  resetIdle : s.rst = true → s.eng = .idle
  /-- After an error, every result register is 0 (R27 to R30, R96). -/
  errorZero : s.eng = .idle → s.errcode ≠ .none → s.result = 0 ∧ s.chrOut0 = 0 ∧ s.chrOut1 = 0 ∧ s.steps = 0
  /-- `CHR_OUT1[31:16] = 0` (R29). -/
  chrOut1High : s.eng = .idle → s.chrOut1.extractLsb' 16 16 = 0
  /-- The largest possible `STEPS` is `0xC0000001` (R30). -/
  stepsBound : s.eng = .idle → s.steps.toNat ≤ 0xC0000001

/-! ### What the next step does to the block -/

/-- An admitted access (20_memory R42), with `rst` deasserted (70_reset R110). -/
def Admitted (s : State) (off : Offset) (a : Access) : Prop :=
  s.rst = false ∧ a.size = 2#2 ∧ off.toNat % 4 = 0 ∧ a.be = 15#4

/-- The next step is an admitted read at `off` by some bus master, and `es` comes after it. -/
def ReadNext (s : State) (off : Offset) (es : List Event) : Prop :=
  ∃ a, s.schedule = .access a :: es ∧ windowOffset s.tables a.addr = some off ∧ a.write = false ∧ Admitted s off a

/-- The next step is an admitted write of `v` at `off` by some bus master, and `es` comes after it. -/
def WriteNext (s : State) (off : Offset) (v : Word) (es : List Event) : Prop :=
  ∃ a, s.schedule = .access a :: es ∧ windowOffset s.tables a.addr = some off ∧ a.write = true ∧ a.wdata = v ∧
    Admitted s off a

/-- The admitted register write that the next step makes, by the host's program or by another master. -/
def nextWrite (s : State) : Option (Reg × Word) :=
  match (nextEvent s).1 with
  | .access a =>
    match windowOffset s.tables a.addr with
    | none => none
    | some off =>
      if a.write && (s.busProblem off a).isNone then (regAt off).map fun r => (r, a.wdata) else none
  | .hostTurn =>
    if s.host.halted || s.rst then none
    else
      match s.host.prog[s.host.pc]? with
      | some (.write r src) => some (r, s.host.source src)
      | some (.read _ _) => none
      | some (.bnz _ _ _) => none
      | some (.bz _ _ _) => none
      | some (.xor _ _ _) => none
      | some (.jump _) => none
      | some .waitIrq => none
      | some .halt => none
      | some (.label _) => none
      | none => none
  | .engineTurn => none
  | .rstAssert => none
  | .rstDeassert => none

/-- The next step is the engine's completion step (10_state R35). -/
def completesNext (s : State) : Prop := (nextEvent s).1 = .engineTurn ∧ s.eng = .busy ∧ s.rst = false

/-- The next step asserts `rst`. -/
def resetsNext (s : State) : Prop := (nextEvent s).1 = .rstAssert

/-! ### Safe runs -/

/-- `n` steps from `s` end in `t`, with no fault and no refusal: every access was admitted, and the host's program was well formed. -/
def Runs (n : Nat) (s t : State) : Prop := Host.Core.run Sys2Proof.core n s = .next t

/-- A run of `n` steps that meets no fault and no refusal. -/
def SafeRun (n : Nat) (s : State) : Prop := ∃ t, Runs n s t

end Sys2Proof.Machine
end

