-- ==== Sys2Proof/Certificates/Slice0/Obligations.lean ====
section
/-! DEFINITION. The statements, from the numbered rules of spec/: encoding, the register window, commands, laws, reset and invariants. -/

open Sys2Proof Sys2Proof.Machine

/-! ### Parameters and encoding -/

/-- 00_scope R7: `L = 6` is the most digits of base 32 whose power does not exceed `2^32`, `N = 32^L = 0x40000000`, and `v < N` exactly when `v[31:30] = 0b00`. -/
def Obligations.LengthAndModulusFit : Prop :=
  Config.strLen = 6 ∧ Config.N = 0x40000000 ∧ Config.N = 32 ^ Config.strLen ∧ Config.N ≤ 2 ^ 32 ∧
  2 ^ 32 < 32 ^ (Config.strLen + 1) ∧ ∀ v : Word, v.toNat < Config.N ↔ v.extractLsb' 30 2 = 0

/-- 30_encoding R57, R59: no bit of a command's encoding is dropped. -/
def Obligations.EncodedCommandDecodesBack : Prop :=
  ∀ i : Instr, i.wellFormed = true → decode (encode i) = .ok i

/-- 30_encoding R62: a word that decodes is the encoding of what it decodes to, which is well formed. -/
def Obligations.DecodedWordEncodesBack : Prop :=
  ∀ (w : Word) (i : Instr), decode w = .ok i → i.wellFormed = true ∧ encode i = w

/-- 30_encoding R62: decoding is total, and the opcode table alone decides it: a word is operation `m` exactly when `(word & mask_m) = match_m`,
every row has the same mask, at most one row matches, and a word that matches no row is illegal. -/
def Obligations.OpcodeTableDecidesDecoding : Prop :=
  (∀ r ∈ opcodeTable, r.mask = 0xFFFFFF0F) ∧
  ∀ w : Word,
    (∀ r ∈ opcodeTable, r.matches w = true ↔ ∃ i, decode w = .ok i ∧ i.mnemonic = r.mnemonic) ∧
    (∀ r ∈ opcodeTable, ∀ q ∈ opcodeTable, r.matches w = true → q.matches w = true → r = q) ∧
    ((∀ r ∈ opcodeTable, r.matches w = false) ↔ ∃ e, decode w = .error e)

/-- 30_encoding R59, R60, 95_test_vectors section 2.6: words written out from the spec decode as the spec says. -/
def Obligations.WrittenOutWordsDecode : Prop :=
  decode 0x00000001 = .ok (.rfn 0) ∧ decode 0x000000F1 = .ok (.rfn 15) ∧ decode 0x00000002 = .ok (.rndf 0) ∧
  decode 0x00000003 = .ok (.rndi 0) ∧ decode 0x000000F4 = .ok (.permf 15) ∧ decode 0x00000005 = .ok (.permi 0) ∧
  decode 0x00000006 = .ok (.walkf 0) ∧ decode 0x00000007 = .ok (.walki 0) ∧ decode 0x00000008 = .ok (.enc 0) ∧
  decode 0x00000069 = .ok (.dec 6) ∧ decode 0x00000159 = .error .reservedBits ∧
  decode 0x80000008 = .error .reservedBits ∧ decode 0x00000000 = .error .reservedOpcode ∧
  decode 0x0000000A = .error .reservedOpcode ∧ decode 0x0000000F = .error .reservedOpcode

/-! ### The engine -/

/-- 10_state R35, 30_encoding R61: at the engine's turn, a busy engine runs the command that `CMD` decodes to, on the state as it stands once the turn is taken off the schedule;
when no event is left, the engine has the turn (the schedule and the turn at its end: the model's choice, log 1, 2). -/
def Obligations.StepRunsDecodedCommand : Prop :=
  ∀ (s : State) (i : Instr), s.rst = false → s.eng = .busy → decode s.cmd = .ok i →
    (∀ es, s.schedule = .engineTurn :: es → step s = exec i { s with schedule := es }) ∧
    (s.schedule = [] → step s = exec i s)

/-- 30_encoding R60, 60_exceptions R96: an illegal word, `RSV != 0` or `OP` in `{0x0, 0xA, …, 0xF}`, is accepted like any other and completes with error 1, `ERRPOS = 0` and every result register 0 (the schedule: log 1). -/
def Obligations.IllegalWordCompletesWithErrorOne : Prop :=
  ∀ (s : State) (w : Word),
    (w.extractLsb' 8 24 ≠ 0 ∨ w.extractLsb' 0 4 = 0 ∨ 0xA ≤ (w.extractLsb' 0 4).toNat) →
    (s.rst = false → s.eng = .idle → ∀ es, s.schedule = .access (memWrite s.tables 0x08 w) :: es →
      ∃ t, step s = .next t ∧ t.cmd = w ∧ t.eng = .busy) ∧
    (s.rst = false → s.eng = .busy → s.cmd = w → ∀ es, s.schedule = .engineTurn :: es →
      step s = .next (State.failed .illegalCommand 0 { s with schedule := es }))

/-- 10_state R35: while idle the engine has no step; its turn (log 1) changes nothing. -/
def Obligations.IdleEngineHasNoStep : Prop :=
  ∀ (s : State) (es : List Event), s.eng = .idle → s.schedule = .engineTurn :: es →
    step s = .next { s with schedule := es }

/-- 42_cycle_walk R82 ("So every command completes"), 70_reset R123: whatever word and operands were accepted, the engine's turn completes the command,
and so does the next step when no other event is left (the turn, and that the engine then has it, are the model's form of R123's fairness, log 1, 2). -/
def Obligations.EveryAcceptedCommandCompletes : Prop :=
  ∀ s : State, s.rst = false → s.eng = .busy → (s.schedule = [] ∨ ∃ es, s.schedule = .engineTurn :: es) →
    ∃ t, step s = .next t ∧ t.eng = .idle ∧ t.done = true ∧ t.cmd = s.cmd ∧ t.ovr = s.ovr ∧ t.ie = s.ie

/-! ### Register window: in these statements `schedule` and `reply` are the model's own form of the total order and of the ports' answer (log 1, 12) -/

/-- 10_state R34: a command write while idle latches the four operand registers, takes the word whole, and clears the report; the four result registers become unspecified.
While busy it is dropped: `OVR` is set and nothing else changes. Answer and schedule: log 12, 1; the free draws: log 5. -/
def Obligations.CommandWriteIsAcceptedOrDropped : Prop :=
  ∀ (s : State) (w : Word) (es : List Event),
    WriteNext s 0x08 w es →
    (s.eng = .busy → step s = .next { s with ovr := true, reply := some .done, schedule := es }) ∧
    (s.eng = .idle → ∃ r c0 c1 n k, step s = .next { s with
      cmd := w, la0 := s.arg0, la1 := s.arg1, lc0 := s.chrIn0, lc1 := s.chrIn1, eng := .busy,
      done := false, err := false, errcode := .none, errpos := 0,
      result := r, chrOut0 := c0, chrOut1 := c1, steps := n, draws := k,
      reply := some .done, schedule := es })

/-- 10_state R22: a write of `w` to `STATUS` clears `DONE`, `ERR`, `OVR` where `w` has a 1, and has no other effect, busy or not.Answer and schedule: log 12, 1. -/
def Obligations.StatusWriteClearsWrittenOnes : Prop :=
  ∀ (s : State) (w : Word) (es : List Event),
    WriteNext s 0x0C w es →
    step s = .next { s with
      done := if w.getLsbD 1 then false else s.done
      err := if w.getLsbD 2 then false else s.err
      ovr := if w.getLsbD 3 then false else s.ovr
      reply := some .done
      schedule := es }

/-- 10_state R19: a write of `w` to `CTRL` sets `IE <- w[0]` and has no other effect, busy or not; `CTRL` reads back `IE` with 31 zero bits.Answer and schedule: log 12, 1. -/
def Obligations.ControlWriteSetsInterruptEnable : Prop :=
  ∀ (s : State) (w : Word) (es : List Event),
    (WriteNext s 0x04 w es →
      step s = .next { s with ie := w.getLsbD 0, reply := some .done, schedule := es }) ∧
    (ReadNext s 0x04 es →
      step s = .next { s with reply := some (.data (if s.ie then 1 else 0)), schedule := es })

/-- 10_state R23 to R26, 20_memory R42: an operand register takes all 32 bits written, busy or not, and nothing else changes.Answer and schedule: log 12, 1. -/
def Obligations.OperandWriteStoresWholeWord : Prop :=
  ∀ (s : State) (v : Word) (es : List Event),
    (WriteNext s 0x10 v es →
      step s = .next { s with arg0 := v, reply := some .done, schedule := es }) ∧
    (WriteNext s 0x14 v es →
      step s = .next { s with arg1 := v, reply := some .done, schedule := es }) ∧
    (WriteNext s 0x18 v es →
      step s = .next { s with chrIn0 := v, reply := some .done, schedule := es }) ∧
    (WriteNext s 0x1C v es →
      step s = .next { s with chrIn1 := v, reply := some .done, schedule := es })

/-- 70_reset R122, last sentence: an operand register written by an admitted write reads back its new value on the very next access.Answer and schedule: log 12, 1. -/
def Obligations.OperandReadsBackOnNextAccess : Prop :=
  ∀ (s : State) (v : Word) (off : Offset) (es : List Event), off ∈ [0x10, 0x14, 0x18, 0x1C] →
    WriteNext s off v es →
    ∃ t, step s = .next t ∧ ∀ fs, ReadNext t off fs → ∃ u, step t = .next u ∧ u.reply = some (.data v)

/-- 20_memory R42, 10_state R18, R27 to R31: writes to `INFO`, the four result registers and the reserved offsets are ignored, without a bus error.Answer and schedule: log 12, 1. -/
def Obligations.ReadOnlyOffsetsIgnoreWrites : Prop :=
  ∀ (s : State) (v : Word) (off : Offset) (es : List Event),
    off ∈ [0x00, 0x20, 0x24, 0x28, 0x2C, 0x30, 0x34, 0x38, 0x3C] →
    WriteNext s off v es →
    step s = .next { s with reply := some .done, schedule := es }

/-- 10_state R31: the reserved offsets read as 0 and ignore writes, without a bus error.Answer and schedule: log 12, 1. -/
def Obligations.ReservedOffsetsReadZeroIgnoreWrites : Prop :=
  ∀ (s : State) (v : Word) (off : Offset) (es : List Event), off ∈ [0x30, 0x34, 0x38, 0x3C] →
    (ReadNext s off es →
      step s = .next { s with reply := some (.data 0x00000000), schedule := es }) ∧
    (WriteNext s off v es →
      step s = .next { s with reply := some .done, schedule := es })

/-- 10_state R18: `INFO` reads its constant fields, `0x01002026` with `FNV_PREMULTIPLY = false`; writes to it are ignored; and no register's value is read from the keys or the alphabet.Answer and schedule: log 12, 1. -/
def Obligations.InfoReadsConstant : Prop :=
  (∀ (s : State) (v : Word) (es : List Event),
    (ReadNext s 0x00 es → ∃ w : Word,
      step s = .next { s with reply := some (.data w), schedule := es } ∧
      w.extractLsb' 0 4 = 6 ∧ w.extractLsb' 4 4 = 2 ∧ w.extractLsb' 8 8 = 0x20 ∧
      w.getLsbD 16 = s.tables.premultiply ∧ w.extractLsb' 17 7 = 0 ∧ w.extractLsb' 24 8 = 0x01 ∧
      (s.tables.premultiply = false → w = 0x01002026)) ∧
    (WriteNext s 0x00 v es →
      step s = .next { s with reply := some .done, schedule := es })) ∧
  ∀ (s : State) (t : Tables) (r : Reg), t.premultiply = s.tables.premultiply →
    State.regValue { s with tables := t } r = s.regValue r

/-- 10_state R21, 60_exceptions R93: `STATUS` reads its flags, the number of its error code and its position in place, and 0 in every reserved bit.Answer and schedule: log 12, 1. -/
def Obligations.StatusReadsItsFields : Prop :=
  ∀ (s : State) (es : List Event), ReadNext s 0x0C es →
    ∃ w : Word, step s = .next { s with reply := some (.data w), schedule := es } ∧
      w.getLsbD 0 = decide (s.eng = .busy) ∧ w.getLsbD 1 = s.done ∧ w.getLsbD 2 = s.err ∧ w.getLsbD 3 = s.ovr ∧
      w.extractLsb' 4 4 = 0 ∧ w.extractLsb' 12 3 = s.errpos ∧ w.extractLsb' 15 17 = 0 ∧
      w.extractLsb' 8 4 = match s.errcode with
        | .none => 0
        | .illegalCommand => 1
        | .outOfRange => 2
        | .invalidLength => 3
        | .invalidCharacter => 4

/-- 10_state R36, 20_memory R47: reads of `CMD` and the operand registers return their values, busy or not; the four result registers return theirs while idle;
while busy a read of one of the four returns a free draw (log 5: the model's form of "an unspecified value"). No read changes any register or flag.Answer and schedule: log 12, 1. -/
def Obligations.ReadReturnsRegisterOrFreeDraw : Prop :=
  ∀ (s : State) (es : List Event),
    (ReadNext s 0x08 es →
      step s = .next { s with reply := some (.data s.cmd), schedule := es }) ∧
    (ReadNext s 0x10 es →
      step s = .next { s with reply := some (.data s.arg0), schedule := es }) ∧
    (ReadNext s 0x14 es →
      step s = .next { s with reply := some (.data s.arg1), schedule := es }) ∧
    (ReadNext s 0x18 es →
      step s = .next { s with reply := some (.data s.chrIn0), schedule := es }) ∧
    (ReadNext s 0x1C es →
      step s = .next { s with reply := some (.data s.chrIn1), schedule := es }) ∧
    (s.eng = .idle →
      (ReadNext s 0x20 es →
        step s = .next { s with reply := some (.data s.result), schedule := es }) ∧
      (ReadNext s 0x24 es →
        step s = .next { s with reply := some (.data s.chrOut0), schedule := es }) ∧
      (ReadNext s 0x28 es →
        step s = .next { s with reply := some (.data s.chrOut1), schedule := es }) ∧
      (ReadNext s 0x2C es →
        step s = .next { s with reply := some (.data s.steps), schedule := es })) ∧
    (s.eng = .busy → ∀ off ∈ [(0x20 : Offset), 0x24, 0x28, 0x2C],
      ReadNext s off es →
      step s = .next { s with
        reply := some (.data (Config.freeWord s.draws)), draws := s.draws + 1, schedule := es })

/-- 20_memory R47: a repeated write to `CTRL`, `STATUS` or an operand register changes nothing more; a second command write does: it sets `OVR`, and while `OVR` was clear that is a change. -/
def Obligations.WritesAreIdempotentExceptCommand : Prop :=
  (∀ (s : State) (r : Reg) (v : Word), r ≠ .cmd → (s.writeReg r v).writeReg r v = s.writeReg r v) ∧
  ∀ (s : State) (v : Word), s.ovr = false →
    ((s.writeReg .cmd v).writeReg .cmd v).ovr = true ∧ (s.eng = .idle → (s.writeReg .cmd v).ovr = false)

/-- 20_memory R42, R44, 70_reset R110: an access at the block completes exactly when it is 4 bytes wide, at an offset that is a multiple of 4, with all four byte lanes enabled, and `rst` is not asserted;
otherwise it is a bus error, which the block answers with 0 on the data lines and no change of state.
That the access then ends as a fault of the step is R44's treatment (log 8); that the 0 is there for a write too is the model's choice, since R44 gives it for a read (log 8); that R42's byte lanes are those of a read too is the model's reading (log 9). -/
def Obligations.AccessFaultsExactlyWhenNotAdmitted : Prop :=
  ∀ (s : State) (a : Access) (off : Offset) (es : List Event), windowOffset s.tables a.addr = some off →
    s.schedule = .access a :: es →
    (a.size = 2#2 ∧ off.toNat % 4 = 0 ∧ a.be = 15#4 ∧ s.rst = false → ∃ t, step s = .next t) ∧
    (a.size ≠ 2#2 ∨ off.toNat % 4 ≠ 0 ∨ a.be ≠ 15#4 ∨ s.rst = true →
      ∃ why, step s = .fault (.busError why) ∧ s.present off a = (.error why 0, s))

/-- 20_memory R41: an access outside the 64 bytes at `BASE` never reaches the block; that the model's step then does nothing is its choice (log 7). -/
def Obligations.AccessOutsideWindowChangesNothing : Prop :=
  ∀ (s : State) (a : Access) (es : List Event), s.schedule = .access a :: es →
    (a.addr < 0x40 * s.tables.baseBlock ∨ 0x40 * s.tables.baseBlock + 0x40 ≤ a.addr) →
    step s = .next { s with schedule := es }

/-- 60_exceptions R101: `irq = CTRL.IE & STATUS.DONE` at every instant. -/
def Obligations.IrqIsEnableAndDone : Prop :=
  ∀ s : State, s.irq = (s.ctrlWord.getLsbD 0 && s.statusWord.getLsbD 1)

/-! ### Reset and configuration -/

/-- 10_state R39: the state after reset, for every build-time configuration. -/
def Obligations.ResetHoldsSpecValues : Prop :=
  ∀ t : Tables, ∀ s : State, s = State.resetWith t →
    s.tables = t ∧ (t.premultiply = false → infoWord s.tables = 0x01002026) ∧ s.ctrlWord = 0x00000000 ∧ s.cmd = 0x00000000 ∧
    s.statusWord = 0x00000000 ∧ s.arg0 = 0 ∧ s.arg1 = 0 ∧ s.chrIn0 = 0 ∧ s.chrIn1 = 0 ∧
    s.result = 0 ∧ s.chrOut0 = 0 ∧ s.chrOut1 = 0 ∧ s.steps = 0 ∧ s.eng = .idle ∧ s.irq = false

/-- 70_reset R111, R112, 10_state R39: whatever was going on, asserting and deasserting `rst` leaves every register at its reset value, the tables as they were, no command in progress and `irq = 0`;
between the two the engine takes no completion step. The latch is unspecified (log 4); that the values are taken when `rst` is asserted is the model's reading (log 10).
R39 gives the ports `ack`, `err` and `rdata` no value: that `reply` is then empty is the model's choice (log 12), and so is the untouched host (log 13). -/
def Obligations.ResetAbandonsCommandAndClearsRegisters : Prop :=
  ∀ (s : State) (es : List Event),
    s.schedule = .rstAssert :: .engineTurn :: .rstDeassert :: es →
    ∃ t u v, step s = .next t ∧ t.rst = true ∧ step t = .next u ∧
      u = { t with schedule := .rstDeassert :: es } ∧ step u = .next v ∧
      ∃ a0 a1 c0 c1 k, v = { State.resetWith s.tables with
        la0 := a0, la1 := a1, lc0 := c0, lc1 := c1, host := s.host, schedule := es, draws := k } ∧ v.irq = false

/-- 00_scope R6, R14, 70_reset R115: a configuration is refused exactly when it is ill-formed, and a block that is built holds the parameters it was given (that a bad base is refused too is the model's choice, log 6). -/
def Obligations.IllFormedConfigurationIsRefused : Prop :=
  ∀ c : RawConfig,
    ((c.alphabet.length = 32 ∧ c.alphabet.Nodup ∧ c.base % 0x40 = 0) →
      ∃ s, State.build c = .next s ∧ s = State.resetWith s.tables ∧ s.tables.key0 = c.key0 ∧
        s.tables.key1 = c.key1 ∧ s.tables.premultiply = c.premultiply ∧ s.tables.alphabet.symbols = c.alphabet ∧
        baseOf s.tables = c.base) ∧
    (¬ (c.alphabet.length = 32 ∧ c.alphabet.Nodup ∧ c.base % 0x40 = 0) → ∃ r, State.build c = .refused r)

/-- The state after reset is consistent (10_state R21, R27 to R30, R39). -/
def Obligations.ResetIsConsistent : Prop := ∀ t : Tables, Consistent (State.resetWith t)

/-- 10_state R21, R27 to R30, R35, 70_reset R112: every step from a consistent state leads to a consistent state, whatever event it is (that no command runs while `rst` is asserted rests on log 10). -/
def Obligations.StepKeepsConsistent : Prop :=
  ∀ s t : State, Consistent s → step s = .next t → Consistent t

/-- 10_state R32, 70_reset R111: no step writes the constant tables or the base, not even a reset. -/
def Obligations.NoStepWritesTheTables : Prop :=
  ∀ s t : State, step s = .next t → t.tables = s.tables

/-- 10_state R37: every flag changes only as the flag table says. The invariant `Consistent` (O27, O28) is a premise for the clearing of `ERR` only:
a command never completes with `ERR` already set, because `BUSY = 1` implies `ERR = 0` (R21). -/
def Obligations.FlagsChangeOnlyAsTheTableSays : Prop :=
  ∀ s t : State, step s = .next t →
    (s.eng = .idle → t.eng = .busy → ∃ w, nextWrite s = some (.cmd, w)) ∧
    (s.eng = .busy → t.eng = .idle → completesNext s ∨ resetsNext s) ∧
    (s.done = false → t.done = true → completesNext s) ∧
    (s.done = true → t.done = false →
      (∃ w, nextWrite s = some (.status, w) ∧ w.getLsbD 1 = true) ∨
      (∃ w, nextWrite s = some (.cmd, w) ∧ s.eng = .idle) ∨ resetsNext s) ∧
    (s.err = false → t.err = true → completesNext s ∧ t.errcode ≠ .none) ∧
    (Consistent s → s.err = true → t.err = false →
      (∃ w, nextWrite s = some (.status, w) ∧ w.getLsbD 2 = true) ∨
      (∃ w, nextWrite s = some (.cmd, w) ∧ s.eng = .idle) ∨ resetsNext s) ∧
    (s.ovr = false → t.ovr = true → ∃ w, nextWrite s = some (.cmd, w) ∧ s.eng = .busy) ∧
    (s.ovr = true → t.ovr = false →
      (∃ w, nextWrite s = some (.status, w) ∧ w.getLsbD 3 = true) ∨ resetsNext s)

/-! ### Every command: frame, determinism, latch -/

/-- 10_state R35, 60_exceptions R96: a command, with or without an error, leaves the tables, `CTRL`, `CMD`, `OVR`, the operand registers, the latch, the ports, the host and the schedule as they were. -/
def Obligations.CommandsWriteOnlyResultsAndReport : Prop :=
  ∀ (i : Instr) (s t : State), exec i s = .next t →
    t = { s with
      result := t.result, chrOut0 := t.chrOut0, chrOut1 := t.chrOut1, steps := t.steps,
      errcode := t.errcode, errpos := t.errpos, err := t.err, done := t.done, eng := t.eng }

/-- 70_reset R126: a command's results depend only on the command word, the latched operands and the configuration. -/
def Obligations.ResultsDependOnWordLatchAndTables : Prop :=
  ∀ s u : State, s.cmd = u.cmd → s.la0 = u.la0 → s.la1 = u.la1 → s.lc0 = u.lc0 → s.lc1 = u.lc1 →
    s.tables = u.tables → ∃ t v, runCommand s = .next t ∧ runCommand u = .next v ∧
      t.result = v.result ∧ t.chrOut0 = v.chrOut0 ∧ t.chrOut1 = v.chrOut1 ∧ t.steps = v.steps ∧
      t.errcode = v.errcode ∧ t.errpos = v.errpos ∧ t.err = v.err ∧ t.eng = .idle ∧ v.eng = .idle

/-- 70_reset R119, 10_state R33: a write to an operand register while a command runs does not change the command's outcome, and the register keeps what was written. -/
def Obligations.OperandWritesDoNotDisturbRunningCommand : Prop :=
  ∀ (s t : State) (r : Reg) (v : Word), r ∈ [Reg.arg0, Reg.arg1, Reg.chrIn0, Reg.chrIn1] →
    runCommand s = .next t → runCommand (s.writeReg r v) = .next (t.writeReg r v)

/-! ### Round function and Feistel round -/

/-- 40_round R65 and R66: `F` as four (with `FNV_PREMULTIPLY`, five) multiplies by the prime and four XORs, alternating, on a 64-bit accumulator. -/
def Obligations.RoundFunctionIsTruncatedFnv : Prop :=
  ∀ x k : Half,
    let p : Acc := 0x00000100000001B3
    let z : Acc → Acc := fun a =>
      (((a * p ^^^ (x.extractLsb' 0 8).setWidth 64) * p ^^^ (x.extractLsb' 8 8).setWidth 64) * p
        ^^^ (k.extractLsb' 0 8).setWidth 64) * p ^^^ (k.extractLsb' 8 8).setWidth 64
    roundFn false x k = (z 0xCBF29CE484222325).extractLsb' 0 16 ∧
    roundFn true x k = (z (0xCBF29CE484222325 * p)).extractLsb' 0 16

/-- 40_round R69: RFN gives `zext_32(F(LA0[15:0], LA1[15:0]))`, whatever `LEN` is. -/
def Obligations.RfnGivesRoundFunction : Prop :=
  ∀ (len : Nat) (s : State),
    exec (.rfn len) s = .next (s.succeeded
      (BitVec.setWidth 32 (roundFn s.tables.premultiply (s.la0.extractLsb' 0 16) (s.la1.extractLsb' 0 16))) 0 0 0)

/-- 40_round R70, R67: RNDF gives `{F(r, k) ^ l, r}` for `LA0 = {r, l}`, `k = LA1[15:0]`. -/
def Obligations.RndfGivesForwardRound : Prop :=
  ∀ (len : Nat) (s : State) (l r : Half), s.la0 = r ++ l →
    exec (.rndf len) s = .next (s.succeeded
      ((roundFn s.tables.premultiply r (s.la1.extractLsb' 0 16) ^^^ l) ++ r) 0 0 0)

/-- 40_round R71, R68: RNDI gives `{l', F(l', k) ^ r'}` for `LA0 = {r', l'}`, `k = LA1[15:0]`. -/
def Obligations.RndiGivesInverseRound : Prop :=
  ∀ (len : Nat) (s : State) (l r : Half), s.la0 = r ++ l →
    exec (.rndi len) s = .next (s.succeeded
      (l ++ (roundFn s.tables.premultiply l (s.la1.extractLsb' 0 16) ^^^ r)) 0 0 0)

/-- 40_round R72 item 1, at the machine: RNDI of RNDF's result, with the same key and configuration, gives back RNDF's operand. -/
def Obligations.RndiUndoesRndf : Prop :=
  ∀ (m n : Nat) (s t u : State), exec (.rndf m) s = .next t →
    u.tables = s.tables → u.la0 = t.result → u.la1.extractLsb' 0 16 = s.la1.extractLsb' 0 16 →
    ∃ v, exec (.rndi n) u = .next v ∧ v.result = s.la0

/-- 40_round R72 item 2: the 16-bit reduction of the round function. -/
def Obligations.RoundFunctionReducesToSixteenBits : Prop :=
  ∀ x k : Half,
    let q : Half := 0x01B3
    roundFn false x k =
      ((((0x2325 * q ^^^ (x.extractLsb' 0 8).setWidth 16) * q ^^^ (x.extractLsb' 8 8).setWidth 16) * q
        ^^^ (k.extractLsb' 0 8).setWidth 16) * q ^^^ (k.extractLsb' 8 8).setWidth 16)

/-- 40_round R72 item 4: the key's high byte reaches only the low byte of the result, by XOR, under both settings of `FNV_PREMULTIPLY`. -/
def Obligations.KeyHighByteOnlyXorsLowByte : Prop :=
  ∀ (p : Bool) (x k k' : Half), k.extractLsb' 0 8 = k'.extractLsb' 0 8 →
    roundFn p x k ^^^ roundFn p x k' = ((k.extractLsb' 8 8) ^^^ (k'.extractLsb' 8 8)).setWidth 16

/-! ### 32-bit permutation -/

/-- 41_permutation R75, R73: PERMF gives `Encode32(LA0)` with `STEPS = 1` for every value, with no range check; in closed form, `{h, m}`. -/
def Obligations.PermfGivesTwoForwardRounds : Prop :=
  ∀ (len : Nat) (s : State) (l r m h : Half), s.la0 = r ++ l →
    m = roundFn s.tables.premultiply r s.tables.key0 ^^^ l →
    h = roundFn s.tables.premultiply m s.tables.key1 ^^^ r →
    exec (.permf len) s = .next (s.succeeded (h ++ m) 0 0 1)

/-- 41_permutation R76, R74: PERMI gives `Decode32(LA0)` with `STEPS = 1` for every value; in closed form, with the keys in reverse order. -/
def Obligations.PermiGivesTwoInverseRounds : Prop :=
  ∀ (len : Nat) (s : State) (m h l r : Half), s.la0 = h ++ m →
    r = h ^^^ roundFn s.tables.premultiply m s.tables.key1 →
    l = m ^^^ roundFn s.tables.premultiply r s.tables.key0 →
    exec (.permi len) s = .next (s.succeeded (r ++ l) 0 0 1)

/-- 41_permutation R77: `Encode32` and `Decode32` undo each other, `Encode32` is a permutation of the 2^32 values, both have the closed form of item 2,
and the low half of `Encode32(x)` is `F(x[31:16], KEY[0]) ^ x[15:0]`, whatever `KEY[1]` is. -/
def Obligations.PermutationIsBijective : Prop :=
  ∀ t : Tables,
    (∀ x, decode32 t (encode32 t x) = x) ∧ (∀ y, encode32 t (decode32 t y) = y) ∧
    Function.Bijective (encode32 t) ∧
    (∀ l0 r0 : Half, let m := roundFn t.premultiply r0 t.key0 ^^^ l0
      encode32 t (r0 ++ l0) = (roundFn t.premultiply m t.key1 ^^^ r0) ++ m) ∧
    (∀ m h : Half, let r := h ^^^ roundFn t.premultiply m t.key1
      decode32 t (h ++ m) = r ++ (m ^^^ roundFn t.premultiply r t.key0)) ∧
    ∀ (x : Word) (k : Half),
      (encode32 { t with key1 := k } x).extractLsb' 0 16
        = roundFn t.premultiply (x.extractLsb' 16 16) t.key0 ^^^ x.extractLsb' 0 16

/-! ### Cycle walking -/

/-- 42_cycle_walk R82: for every `v < N` both walks end, after at most `0xC0000001` applications, at the first value below `N`; the model's fuel (log 11) never runs out. -/
def Obligations.WalksFromBelowNEnd : Prop :=
  ∀ (t : Tables) (v : Word), v.toNat < 0x40000000 →
    (∃ w n, walkF t v = some (w, n) ∧ n ≤ 0xC0000001 ∧ WalkEnds (encode32 t) v w n) ∧
    (∃ w n, walkI t v = some (w, n) ∧ n ≤ 0xC0000001 ∧ WalkEnds (decode32 t) v w n)

/-- 42_cycle_walk R80: WALKF completes for every operand: with the walk's value and step count when `LA0 < N`, with error 2 and no walk step otherwise. -/
def Obligations.WalkfGivesFirstValueInRange : Prop :=
  ∀ (len : Nat) (s : State),
    (s.la0.toNat < 0x40000000 → ∃ w n, WalkEnds (encode32 s.tables) s.la0 w n ∧ n ≤ 0xC0000001 ∧
      exec (.walkf len) s = .next (s.succeeded w 0 0 (BitVec.ofNat 32 n))) ∧
    (0x40000000 ≤ s.la0.toNat → exec (.walkf len) s = .next (s.failed .outOfRange 0))

/-- 42_cycle_walk R81: WALKI completes for every operand: with the inverse walk's value and step count when `LA0 < N`, with error 2 otherwise. -/
def Obligations.WalkiGivesFirstValueInRange : Prop :=
  ∀ (len : Nat) (s : State),
    (s.la0.toNat < 0x40000000 → ∃ w n, WalkEnds (decode32 s.tables) s.la0 w n ∧ n ≤ 0xC0000001 ∧
      exec (.walki len) s = .next (s.succeeded w 0 0 (BitVec.ofNat 32 n))) ∧
    (0x40000000 ≤ s.la0.toNat → exec (.walki len) s = .next (s.failed .outOfRange 0))

/-- 42_cycle_walk R83 items 1 and 3: the two walks invert each other on `[0, N)`, with equal step counts. -/
def Obligations.WalksInvertEachOther : Prop :=
  ∀ (t : Tables) (v w : Word) (n : Nat), v.toNat < 0x40000000 →
    (WalkEnds (encode32 t) v w n ↔ WalkEnds (decode32 t) w v n ∧ w.toNat < 0x40000000) ∧
    (walkF t v = some (w, n) → walkI t w = some (v, n)) ∧
    (walkI t v = some (w, n) → walkF t w = some (v, n))

/-- 42_cycle_walk R83 item 1: `WalkF` restricted to `[0, N)` is a bijection of `[0, N)`. -/
def Obligations.WalkPermutesTheRange : Prop :=
  ∀ t : Tables,
    (∀ v : Word, v.toNat < 0x40000000 → ∃ w n, w.toNat < 0x40000000 ∧ walkF t v = some (w, n)) ∧
    (∀ v v' w n n', v.toNat < 0x40000000 → v'.toNat < 0x40000000 →
      walkF t v = some (w, n) → walkF t v' = some (w, n') → v = v') ∧
    ∀ w : Word, w.toNat < 0x40000000 → ∃ v n, v.toNat < 0x40000000 ∧ walkF t v = some (w, n)

/-- 42_cycle_walk R83 item 2: `WalkF(id).value = id` exactly when the cycle of `id` has no other value below `N`. -/
def Obligations.WalkFixesLoneValueOfCycle : Prop :=
  ∀ (t : Tables) (v : Word), v.toNat < 0x40000000 →
    ((∃ n, walkF t v = some (v, n)) ↔ ∀ j, ((encode32 t)^[j] v).toNat < 0x40000000 → (encode32 t)^[j] v = v)

/-- 42_cycle_walk R83 item 4: the step counts of the walks from all values below `N` sum to `2^32` less the number of values on cycles that lie entirely in `[N, 2^32)`. -/
def Obligations.WalkStepsSumToVisitedValues : Prop :=
  ∀ t : Tables,
    (∑ v ∈ Finset.range 0x40000000, ((walkF t (BitVec.ofNat 32 v)).map Prod.snd).getD 0)
      + Set.ncard { x : Word | ∀ j, 0x40000000 ≤ ((encode32 t)^[j] x).toNat } = 2 ^ 32

/-! ### Radix-32 codec -/

/-- 43_radix R84, R87: the digits of `v < N` are its 5-bit fields; `Value` and `Digits` undo each other, and `Value` is below `N`. -/
def Obligations.DigitsAreFiveBitFields : Prop :=
  (∀ v : Word, v.toNat < 0x40000000 →
    digits v = [v.extractLsb' 0 5, v.extractLsb' 5 5, v.extractLsb' 10 5, v.extractLsb' 15 5,
      v.extractLsb' 20 5, v.extractLsb' 25 5] ∧
    valueOf (digits v) = v.toNat) ∧
  ∀ ds : List Digit, ds.length = 6 → valueOf ds < 0x40000000 ∧ digits (BitVec.ofNat 32 (valueOf ds)) = ds

/-- 43_radix R86: `Index(c)` is the unique `i` with `ALPHABET[i] = c`, if there is one, and none otherwise. -/
def Obligations.IndexInvertsAlphabet : Prop :=
  ∀ (a : Alphabet) (c : Byte),
    (∀ d, indexOf a c = some d ↔ symbolOf a d = c) ∧ (indexOf a c = none ↔ ∀ d, symbolOf a d ≠ c) ∧
    ∀ d d', symbolOf a d = symbolOf a d' → d = d'

/-- 43_radix R89: ENC completes for every operand: with the walk's value, its six symbols in `CHR_OUT0` and `CHR_OUT1`, and the walk's length when `LA0 < N`; with error 2 otherwise. -/
def Obligations.EncGivesWalkAndSymbols : Prop :=
  ∀ (len : Nat) (s : State),
    (s.la0.toNat < 0x40000000 → ∃ v n, WalkEnds (encode32 s.tables) s.la0 v n ∧ n ≤ 0xC0000001 ∧
      let c : Nat → Byte := fun i => symbolOf s.tables.alphabet (v.extractLsb' (5 * i) 5)
      exec (.enc len) s = .next (s.succeeded v (c 3 ++ c 2 ++ c 1 ++ c 0) ((0 : Half) ++ c 5 ++ c 4) (BitVec.ofNat 32 n))) ∧
    (0x40000000 ≤ s.la0.toNat → exec (.enc len) s = .next (s.failed .outOfRange 0))

/-- 43_radix R90: DEC of six alphabet symbols, with `LEN = 6`, completes with the inverse walk of their value and its step count; characters 6 and 7 are never examined. -/
def Obligations.DecGivesInverseWalkOfValue : Prop :=
  ∀ (s : State) (ds : Fin 6 → Digit), charsAre s ds →
    ∃ w n, WalkEnds (decode32 s.tables) (packDigits ds) w n ∧ n ≤ 0xC0000001 ∧
      exec (.dec 6) s = .next (s.succeeded w 0 0 (BitVec.ofNat 32 n))

/-- 43_radix R90, 60_exceptions R94: DEC with another length gives error 3 whatever the characters are; with `LEN = 6` and some character outside the alphabet,
error 4 with the lowest such position. -/
def Obligations.DecReportsLengthThenLowestCharacter : Prop :=
  ∀ s : State,
    (∀ len, len ≠ 6 → exec (.dec len) s = .next (s.failed .invalidLength 0)) ∧
    ∀ (i : Nat) (c : Byte), i < 6 → s.opChars[i]? = some c → (∀ d, symbolOf s.tables.alphabet d ≠ c) →
      (∀ j < i, ∃ d, s.opChars[j]? = some (symbolOf s.tables.alphabet d)) →
      exec (.dec 6) s = .next (s.failed .invalidCharacter (BitVec.ofNat 3 i))

/-- 43_radix R91 item 1: for every id below `N`, DEC of ENC's characters gives the id back, with the same `STEPS` and no error. -/
def Obligations.DecOfEncGivesIdBack : Prop :=
  ∀ (len : Nat) (s : State), s.la0.toNat < 0x40000000 →
    ∃ t, exec (.enc len) s = .next t ∧
      ∀ u : State, u.tables = s.tables → u.lc0 = t.chrOut0 → u.lc1 = t.chrOut1 →
        ∃ v, exec (.dec 6) u = .next v ∧ v.result = s.la0 ∧ v.steps = t.steps ∧ v.err = false ∧ v.errcode = .none

/-- 43_radix R92 items 1 and 2: for every string of six alphabet symbols, ENC of DEC's result gives the string back. -/
def Obligations.EncOfDecGivesStringBack : Prop :=
  ∀ (len : Nat) (s : State) (ds : Fin 6 → Digit), charsAre s ds →
    ∃ t, exec (.dec 6) s = .next t ∧ t.result.toNat < 0x40000000 ∧
      ∀ u : State, u.tables = s.tables → u.la0 = t.result →
        ∃ v, exec (.enc len) u = .next v ∧ v.chrOut0 = s.lc0 ∧
          v.chrOut1 = (0 : Half) ++ (s.lc1.extractLsb' 0 16) ∧ v.err = false

/-! ### The host -/

/-- 30_encoding R63, forms `W` and `R`: the host's program makes one admitted access, records it, and goes on; a read puts the register's value into `tN`,
or a free draw for one of the four result registers while busy (10_state R36; log 5). While `rst` is asserted either form is a bus error (70_reset R110; log 8).
The host agent and its trace: log 13; the answer: log 12. -/
def Obligations.HostWritesAndReadsRegisters : Prop :=
  ∀ (s : State) (es : List Event), s.host.halted = false → s.schedule = .hostTurn :: es →
    (∀ r src v, s.rst = false → s.host.prog[s.host.pc]? = some (.write r src) →
      v = (match src with | .imm x => x | .temp t => s.host.temps[t]) →
      step s = .next { State.writeReg r v { s with schedule := es } with
        reply := some .done
        host := { s.host with pc := s.host.pc + 1, trace := s.host.trace ++ [.w r.offset v] } }) ∧
    (∀ r d, s.rst = false → s.host.prog[s.host.pc]? = some (.read r d) →
      (s.eng = .idle ∨ r ∉ [Reg.result, .chrOut0, .chrOut1, .steps]) →
      step s = .next { s with
        reply := some (.data (s.regValue r))
        schedule := es
        host := { s.host with
          pc := s.host.pc + 1
          temps := s.host.temps.set d (s.regValue r)
          trace := s.host.trace ++ [.r r.offset (s.regValue r)] } }) ∧
    (∀ r d, s.rst = false → s.host.prog[s.host.pc]? = some (.read r d) →
      s.eng = .busy → r ∈ [Reg.result, .chrOut0, .chrOut1, .steps] →
      step s = .next { s with
        reply := some (.data (Config.freeWord s.draws))
        draws := s.draws + 1
        schedule := es
        host := { s.host with
          pc := s.host.pc + 1
          temps := s.host.temps.set d (Config.freeWord s.draws)
          trace := s.host.trace ++ [.r r.offset (Config.freeWord s.draws)] } }) ∧
    (s.rst = true →
      (∃ r src, s.host.prog[s.host.pc]? = some (.write r src)) ∨ (∃ r d, s.host.prog[s.host.pc]? = some (.read r d)) →
      step s = .fault (.busError .inReset))

/-- 30_encoding R63, the forms without a bus access: they change the host only. A branch that is taken goes to its label, and one that is not taken goes on, whatever its label;
a label is passed over; `WAITIRQ` waits until `irq` is 1. The model's choice (log 13): a branch taken to a label that is missing or stands twice is refused,
and a program that has halted or has no operation left does nothing. -/
def Obligations.HostControlLeavesTheBlock : Prop :=
  ∀ (s : State) (es : List Event), s.schedule = .hostTurn :: es →
    (s.host.halted = true ∨ s.host.prog[s.host.pc]? = none → step s = .next { s with schedule := es }) ∧
    (s.host.halted = false →
      (∀ t mask l, s.host.prog[s.host.pc]? = some (.bnz t mask l) →
        (s.host.temps[t] &&& mask = 0 →
          step s = .next { s with schedule := es, host := { s.host with pc := s.host.pc + 1 } }) ∧
        (∀ i, s.host.temps[t] &&& mask ≠ 0 → labelTarget s.host.prog l = some i →
          step s = .next { s with schedule := es, host := { s.host with pc := i } })) ∧
      (∀ t mask l, s.host.prog[s.host.pc]? = some (.bz t mask l) →
        (s.host.temps[t] &&& mask ≠ 0 →
          step s = .next { s with schedule := es, host := { s.host with pc := s.host.pc + 1 } }) ∧
        (∀ i, s.host.temps[t] &&& mask = 0 → labelTarget s.host.prog l = some i →
          step s = .next { s with schedule := es, host := { s.host with pc := i } })) ∧
      (∀ l i, s.host.prog[s.host.pc]? = some (.jump l) → labelTarget s.host.prog l = some i →
        step s = .next { s with schedule := es, host := { s.host with pc := i } }) ∧
      (∀ l, labelTarget s.host.prog l = none →
        s.host.prog[s.host.pc]? = some (.jump l) ∨
        (∃ t mask, s.host.prog[s.host.pc]? = some (.bnz t mask l) ∧ s.host.temps[t] &&& mask ≠ 0) ∨
        (∃ t mask, s.host.prog[s.host.pc]? = some (.bz t mask l) ∧ s.host.temps[t] &&& mask = 0) →
        step s = .refused .unknownLabel) ∧
      (∀ l, s.host.prog[s.host.pc]? = some (.label l) →
        step s = .next { s with schedule := es, host := { s.host with pc := s.host.pc + 1 } }) ∧
      (∀ d a b, s.host.prog[s.host.pc]? = some (.xor d a b) →
        step s = .next { s with
          schedule := es
          host := { s.host with
            pc := s.host.pc + 1, temps := s.host.temps.set d (s.host.temps[a] ^^^ s.host.temps[b]) } }) ∧
      (s.host.prog[s.host.pc]? = some .waitIrq →
        step s = .next { s with
          schedule := es, host := { s.host with pc := if s.ie && s.done then s.host.pc + 1 else s.host.pc } }) ∧
      (s.host.prog[s.host.pc]? = some .halt →
        step s = .next { s with schedule := es, host := { s.host with halted := true } }))

/-- 70_reset R118: two command writes with no wait. If the first has not completed by the second, the first word runs and `OVR` is set; if it has, the second runs and `OVR` is not set. Both orders are runs of the model (the schedule: log 1). -/
def Obligations.BackToBackCommandsHaveBothOutcomes : Prop :=
  ∀ (s : State) (w v : Word) (es : List Event), s.rst = false → s.eng = .idle → s.ovr = false →
    (s.schedule = .access (memWrite s.tables 0x08 w) :: .access (memWrite s.tables 0x08 v) :: .engineTurn :: es →
      ∃ t, Runs 3 s t ∧ t.cmd = w ∧ t.ovr = true ∧ t.eng = .idle ∧ t.done = true) ∧
    (s.schedule = .access (memWrite s.tables 0x08 w) :: .engineTurn :: .access (memWrite s.tables 0x08 v)
        :: .engineTurn :: es →
      ∃ t, Runs 4 s t ∧ t.cmd = v ∧ t.ovr = false ∧ t.eng = .idle ∧ t.done = true)
end

