-- ==== Sys2Proof/Laws/State.lean ====
section
/-! SUPPORT. What every update of State leaves in every field, each by `rfl`, so that no later proof unfolds a record update. -/

namespace Sys2Proof.Machine

section complete

@[simp] theorem complete_tables (c : Completion) (s : State) : (s.complete c).tables = s.tables := rfl
@[simp] theorem complete_ie (c : Completion) (s : State) : (s.complete c).ie = s.ie := rfl
@[simp] theorem complete_cmd (c : Completion) (s : State) : (s.complete c).cmd = s.cmd := rfl
@[simp] theorem complete_done (c : Completion) (s : State) : (s.complete c).done = true := rfl
@[simp] theorem complete_err (c : Completion) (s : State) : (s.complete c).err = decide (c.code ≠ .none) := rfl
@[simp] theorem complete_ovr (c : Completion) (s : State) : (s.complete c).ovr = s.ovr := rfl
@[simp] theorem complete_errcode (c : Completion) (s : State) : (s.complete c).errcode = c.code := rfl
@[simp] theorem complete_errpos (c : Completion) (s : State) : (s.complete c).errpos = c.pos := rfl
@[simp] theorem complete_arg0 (c : Completion) (s : State) : (s.complete c).arg0 = s.arg0 := rfl
@[simp] theorem complete_arg1 (c : Completion) (s : State) : (s.complete c).arg1 = s.arg1 := rfl
@[simp] theorem complete_chrIn0 (c : Completion) (s : State) : (s.complete c).chrIn0 = s.chrIn0 := rfl
@[simp] theorem complete_chrIn1 (c : Completion) (s : State) : (s.complete c).chrIn1 = s.chrIn1 := rfl
@[simp] theorem complete_result (c : Completion) (s : State) : (s.complete c).result = c.result := rfl
@[simp] theorem complete_chrOut0 (c : Completion) (s : State) : (s.complete c).chrOut0 = c.chrOut0 := rfl
@[simp] theorem complete_chrOut1 (c : Completion) (s : State) : (s.complete c).chrOut1 = c.chrOut1 := rfl
@[simp] theorem complete_steps (c : Completion) (s : State) : (s.complete c).steps = c.steps := rfl
@[simp] theorem complete_eng (c : Completion) (s : State) : (s.complete c).eng = .idle := rfl
@[simp] theorem complete_la0 (c : Completion) (s : State) : (s.complete c).la0 = s.la0 := rfl
@[simp] theorem complete_la1 (c : Completion) (s : State) : (s.complete c).la1 = s.la1 := rfl
@[simp] theorem complete_lc0 (c : Completion) (s : State) : (s.complete c).lc0 = s.lc0 := rfl
@[simp] theorem complete_lc1 (c : Completion) (s : State) : (s.complete c).lc1 = s.lc1 := rfl
@[simp] theorem complete_rst (c : Completion) (s : State) : (s.complete c).rst = s.rst := rfl
@[simp] theorem complete_reply (c : Completion) (s : State) : (s.complete c).reply = s.reply := rfl
@[simp] theorem complete_host (c : Completion) (s : State) : (s.complete c).host = s.host := rfl
@[simp] theorem complete_schedule (c : Completion) (s : State) : (s.complete c).schedule = s.schedule := rfl
@[simp] theorem complete_draws (c : Completion) (s : State) : (s.complete c).draws = s.draws := rfl

end complete

section accept

@[simp] theorem accept_tables (w : Word) (s : State) : (s.accept w).tables = s.tables := rfl
@[simp] theorem accept_ie (w : Word) (s : State) : (s.accept w).ie = s.ie := rfl
@[simp] theorem accept_cmd (w : Word) (s : State) : (s.accept w).cmd = w := rfl
@[simp] theorem accept_done (w : Word) (s : State) : (s.accept w).done = false := rfl
@[simp] theorem accept_err (w : Word) (s : State) : (s.accept w).err = false := rfl
@[simp] theorem accept_ovr (w : Word) (s : State) : (s.accept w).ovr = s.ovr := rfl
@[simp] theorem accept_errcode (w : Word) (s : State) : (s.accept w).errcode = .none := rfl
@[simp] theorem accept_errpos (w : Word) (s : State) : (s.accept w).errpos = 0 := rfl
@[simp] theorem accept_arg0 (w : Word) (s : State) : (s.accept w).arg0 = s.arg0 := rfl
@[simp] theorem accept_arg1 (w : Word) (s : State) : (s.accept w).arg1 = s.arg1 := rfl
@[simp] theorem accept_chrIn0 (w : Word) (s : State) : (s.accept w).chrIn0 = s.chrIn0 := rfl
@[simp] theorem accept_chrIn1 (w : Word) (s : State) : (s.accept w).chrIn1 = s.chrIn1 := rfl
@[simp] theorem accept_result (w : Word) (s : State) : (s.accept w).result = Config.freeWord s.draws := rfl
@[simp] theorem accept_chrOut0 (w : Word) (s : State) : (s.accept w).chrOut0 = Config.freeWord (s.draws + 1) := rfl
@[simp] theorem accept_chrOut1 (w : Word) (s : State) : (s.accept w).chrOut1 = Config.freeWord (s.draws + 2) := rfl
@[simp] theorem accept_steps (w : Word) (s : State) : (s.accept w).steps = Config.freeWord (s.draws + 3) := rfl
@[simp] theorem accept_eng (w : Word) (s : State) : (s.accept w).eng = .busy := rfl
@[simp] theorem accept_la0 (w : Word) (s : State) : (s.accept w).la0 = s.arg0 := rfl
@[simp] theorem accept_la1 (w : Word) (s : State) : (s.accept w).la1 = s.arg1 := rfl
@[simp] theorem accept_lc0 (w : Word) (s : State) : (s.accept w).lc0 = s.chrIn0 := rfl
@[simp] theorem accept_lc1 (w : Word) (s : State) : (s.accept w).lc1 = s.chrIn1 := rfl
@[simp] theorem accept_rst (w : Word) (s : State) : (s.accept w).rst = s.rst := rfl
@[simp] theorem accept_reply (w : Word) (s : State) : (s.accept w).reply = s.reply := rfl
@[simp] theorem accept_host (w : Word) (s : State) : (s.accept w).host = s.host := rfl
@[simp] theorem accept_schedule (w : Word) (s : State) : (s.accept w).schedule = s.schedule := rfl
@[simp] theorem accept_draws (w : Word) (s : State) : (s.accept w).draws = s.draws + 4 := rfl

end accept

section overrun

@[simp] theorem overrun_tables (s : State) : (s.overrun).tables = s.tables := rfl
@[simp] theorem overrun_ie (s : State) : (s.overrun).ie = s.ie := rfl
@[simp] theorem overrun_cmd (s : State) : (s.overrun).cmd = s.cmd := rfl
@[simp] theorem overrun_done (s : State) : (s.overrun).done = s.done := rfl
@[simp] theorem overrun_err (s : State) : (s.overrun).err = s.err := rfl
@[simp] theorem overrun_ovr (s : State) : (s.overrun).ovr = true := rfl
@[simp] theorem overrun_errcode (s : State) : (s.overrun).errcode = s.errcode := rfl
@[simp] theorem overrun_errpos (s : State) : (s.overrun).errpos = s.errpos := rfl
@[simp] theorem overrun_arg0 (s : State) : (s.overrun).arg0 = s.arg0 := rfl
@[simp] theorem overrun_arg1 (s : State) : (s.overrun).arg1 = s.arg1 := rfl
@[simp] theorem overrun_chrIn0 (s : State) : (s.overrun).chrIn0 = s.chrIn0 := rfl
@[simp] theorem overrun_chrIn1 (s : State) : (s.overrun).chrIn1 = s.chrIn1 := rfl
@[simp] theorem overrun_result (s : State) : (s.overrun).result = s.result := rfl
@[simp] theorem overrun_chrOut0 (s : State) : (s.overrun).chrOut0 = s.chrOut0 := rfl
@[simp] theorem overrun_chrOut1 (s : State) : (s.overrun).chrOut1 = s.chrOut1 := rfl
@[simp] theorem overrun_steps (s : State) : (s.overrun).steps = s.steps := rfl
@[simp] theorem overrun_eng (s : State) : (s.overrun).eng = s.eng := rfl
@[simp] theorem overrun_la0 (s : State) : (s.overrun).la0 = s.la0 := rfl
@[simp] theorem overrun_la1 (s : State) : (s.overrun).la1 = s.la1 := rfl
@[simp] theorem overrun_lc0 (s : State) : (s.overrun).lc0 = s.lc0 := rfl
@[simp] theorem overrun_lc1 (s : State) : (s.overrun).lc1 = s.lc1 := rfl
@[simp] theorem overrun_rst (s : State) : (s.overrun).rst = s.rst := rfl
@[simp] theorem overrun_reply (s : State) : (s.overrun).reply = s.reply := rfl
@[simp] theorem overrun_host (s : State) : (s.overrun).host = s.host := rfl
@[simp] theorem overrun_schedule (s : State) : (s.overrun).schedule = s.schedule := rfl
@[simp] theorem overrun_draws (s : State) : (s.overrun).draws = s.draws := rfl

end overrun

section clearStatus

@[simp] theorem clearStatus_tables (w : Word) (s : State) : (s.clearStatus w).tables = s.tables := rfl
@[simp] theorem clearStatus_ie (w : Word) (s : State) : (s.clearStatus w).ie = s.ie := rfl
@[simp] theorem clearStatus_cmd (w : Word) (s : State) : (s.clearStatus w).cmd = s.cmd := rfl
@[simp] theorem clearStatus_done (w : Word) (s : State) : (s.clearStatus w).done = (s.done && !w.getLsbD 1) := rfl
@[simp] theorem clearStatus_err (w : Word) (s : State) : (s.clearStatus w).err = (s.err && !w.getLsbD 2) := rfl
@[simp] theorem clearStatus_ovr (w : Word) (s : State) : (s.clearStatus w).ovr = (s.ovr && !w.getLsbD 3) := rfl
@[simp] theorem clearStatus_errcode (w : Word) (s : State) : (s.clearStatus w).errcode = s.errcode := rfl
@[simp] theorem clearStatus_errpos (w : Word) (s : State) : (s.clearStatus w).errpos = s.errpos := rfl
@[simp] theorem clearStatus_arg0 (w : Word) (s : State) : (s.clearStatus w).arg0 = s.arg0 := rfl
@[simp] theorem clearStatus_arg1 (w : Word) (s : State) : (s.clearStatus w).arg1 = s.arg1 := rfl
@[simp] theorem clearStatus_chrIn0 (w : Word) (s : State) : (s.clearStatus w).chrIn0 = s.chrIn0 := rfl
@[simp] theorem clearStatus_chrIn1 (w : Word) (s : State) : (s.clearStatus w).chrIn1 = s.chrIn1 := rfl
@[simp] theorem clearStatus_result (w : Word) (s : State) : (s.clearStatus w).result = s.result := rfl
@[simp] theorem clearStatus_chrOut0 (w : Word) (s : State) : (s.clearStatus w).chrOut0 = s.chrOut0 := rfl
@[simp] theorem clearStatus_chrOut1 (w : Word) (s : State) : (s.clearStatus w).chrOut1 = s.chrOut1 := rfl
@[simp] theorem clearStatus_steps (w : Word) (s : State) : (s.clearStatus w).steps = s.steps := rfl
@[simp] theorem clearStatus_eng (w : Word) (s : State) : (s.clearStatus w).eng = s.eng := rfl
@[simp] theorem clearStatus_la0 (w : Word) (s : State) : (s.clearStatus w).la0 = s.la0 := rfl
@[simp] theorem clearStatus_la1 (w : Word) (s : State) : (s.clearStatus w).la1 = s.la1 := rfl
@[simp] theorem clearStatus_lc0 (w : Word) (s : State) : (s.clearStatus w).lc0 = s.lc0 := rfl
@[simp] theorem clearStatus_lc1 (w : Word) (s : State) : (s.clearStatus w).lc1 = s.lc1 := rfl
@[simp] theorem clearStatus_rst (w : Word) (s : State) : (s.clearStatus w).rst = s.rst := rfl
@[simp] theorem clearStatus_reply (w : Word) (s : State) : (s.clearStatus w).reply = s.reply := rfl
@[simp] theorem clearStatus_host (w : Word) (s : State) : (s.clearStatus w).host = s.host := rfl
@[simp] theorem clearStatus_schedule (w : Word) (s : State) : (s.clearStatus w).schedule = s.schedule := rfl
@[simp] theorem clearStatus_draws (w : Word) (s : State) : (s.clearStatus w).draws = s.draws := rfl

end clearStatus

section drawn

@[simp] theorem drawn_tables (s : State) : (s.drawn).tables = s.tables := rfl
@[simp] theorem drawn_ie (s : State) : (s.drawn).ie = s.ie := rfl
@[simp] theorem drawn_cmd (s : State) : (s.drawn).cmd = s.cmd := rfl
@[simp] theorem drawn_done (s : State) : (s.drawn).done = s.done := rfl
@[simp] theorem drawn_err (s : State) : (s.drawn).err = s.err := rfl
@[simp] theorem drawn_ovr (s : State) : (s.drawn).ovr = s.ovr := rfl
@[simp] theorem drawn_errcode (s : State) : (s.drawn).errcode = s.errcode := rfl
@[simp] theorem drawn_errpos (s : State) : (s.drawn).errpos = s.errpos := rfl
@[simp] theorem drawn_arg0 (s : State) : (s.drawn).arg0 = s.arg0 := rfl
@[simp] theorem drawn_arg1 (s : State) : (s.drawn).arg1 = s.arg1 := rfl
@[simp] theorem drawn_chrIn0 (s : State) : (s.drawn).chrIn0 = s.chrIn0 := rfl
@[simp] theorem drawn_chrIn1 (s : State) : (s.drawn).chrIn1 = s.chrIn1 := rfl
@[simp] theorem drawn_result (s : State) : (s.drawn).result = s.result := rfl
@[simp] theorem drawn_chrOut0 (s : State) : (s.drawn).chrOut0 = s.chrOut0 := rfl
@[simp] theorem drawn_chrOut1 (s : State) : (s.drawn).chrOut1 = s.chrOut1 := rfl
@[simp] theorem drawn_steps (s : State) : (s.drawn).steps = s.steps := rfl
@[simp] theorem drawn_eng (s : State) : (s.drawn).eng = s.eng := rfl
@[simp] theorem drawn_la0 (s : State) : (s.drawn).la0 = s.la0 := rfl
@[simp] theorem drawn_la1 (s : State) : (s.drawn).la1 = s.la1 := rfl
@[simp] theorem drawn_lc0 (s : State) : (s.drawn).lc0 = s.lc0 := rfl
@[simp] theorem drawn_lc1 (s : State) : (s.drawn).lc1 = s.lc1 := rfl
@[simp] theorem drawn_rst (s : State) : (s.drawn).rst = s.rst := rfl
@[simp] theorem drawn_reply (s : State) : (s.drawn).reply = s.reply := rfl
@[simp] theorem drawn_host (s : State) : (s.drawn).host = s.host := rfl
@[simp] theorem drawn_schedule (s : State) : (s.drawn).schedule = s.schedule := rfl
@[simp] theorem drawn_draws (s : State) : (s.drawn).draws = s.draws + 1 := rfl

end drawn

section answered

@[simp] theorem answered_tables (r : Reply) (s : State) : (s.answered r).tables = s.tables := rfl
@[simp] theorem answered_ie (r : Reply) (s : State) : (s.answered r).ie = s.ie := rfl
@[simp] theorem answered_cmd (r : Reply) (s : State) : (s.answered r).cmd = s.cmd := rfl
@[simp] theorem answered_done (r : Reply) (s : State) : (s.answered r).done = s.done := rfl
@[simp] theorem answered_err (r : Reply) (s : State) : (s.answered r).err = s.err := rfl
@[simp] theorem answered_ovr (r : Reply) (s : State) : (s.answered r).ovr = s.ovr := rfl
@[simp] theorem answered_errcode (r : Reply) (s : State) : (s.answered r).errcode = s.errcode := rfl
@[simp] theorem answered_errpos (r : Reply) (s : State) : (s.answered r).errpos = s.errpos := rfl
@[simp] theorem answered_arg0 (r : Reply) (s : State) : (s.answered r).arg0 = s.arg0 := rfl
@[simp] theorem answered_arg1 (r : Reply) (s : State) : (s.answered r).arg1 = s.arg1 := rfl
@[simp] theorem answered_chrIn0 (r : Reply) (s : State) : (s.answered r).chrIn0 = s.chrIn0 := rfl
@[simp] theorem answered_chrIn1 (r : Reply) (s : State) : (s.answered r).chrIn1 = s.chrIn1 := rfl
@[simp] theorem answered_result (r : Reply) (s : State) : (s.answered r).result = s.result := rfl
@[simp] theorem answered_chrOut0 (r : Reply) (s : State) : (s.answered r).chrOut0 = s.chrOut0 := rfl
@[simp] theorem answered_chrOut1 (r : Reply) (s : State) : (s.answered r).chrOut1 = s.chrOut1 := rfl
@[simp] theorem answered_steps (r : Reply) (s : State) : (s.answered r).steps = s.steps := rfl
@[simp] theorem answered_eng (r : Reply) (s : State) : (s.answered r).eng = s.eng := rfl
@[simp] theorem answered_la0 (r : Reply) (s : State) : (s.answered r).la0 = s.la0 := rfl
@[simp] theorem answered_la1 (r : Reply) (s : State) : (s.answered r).la1 = s.la1 := rfl
@[simp] theorem answered_lc0 (r : Reply) (s : State) : (s.answered r).lc0 = s.lc0 := rfl
@[simp] theorem answered_lc1 (r : Reply) (s : State) : (s.answered r).lc1 = s.lc1 := rfl
@[simp] theorem answered_rst (r : Reply) (s : State) : (s.answered r).rst = s.rst := rfl
@[simp] theorem answered_reply (r : Reply) (s : State) : (s.answered r).reply = some r := rfl
@[simp] theorem answered_host (r : Reply) (s : State) : (s.answered r).host = s.host := rfl
@[simp] theorem answered_schedule (r : Reply) (s : State) : (s.answered r).schedule = s.schedule := rfl
@[simp] theorem answered_draws (r : Reply) (s : State) : (s.answered r).draws = s.draws := rfl

end answered

section withHost

@[simp] theorem withHost_tables (h : HostAgent) (s : State) : (s.withHost h).tables = s.tables := rfl
@[simp] theorem withHost_ie (h : HostAgent) (s : State) : (s.withHost h).ie = s.ie := rfl
@[simp] theorem withHost_cmd (h : HostAgent) (s : State) : (s.withHost h).cmd = s.cmd := rfl
@[simp] theorem withHost_done (h : HostAgent) (s : State) : (s.withHost h).done = s.done := rfl
@[simp] theorem withHost_err (h : HostAgent) (s : State) : (s.withHost h).err = s.err := rfl
@[simp] theorem withHost_ovr (h : HostAgent) (s : State) : (s.withHost h).ovr = s.ovr := rfl
@[simp] theorem withHost_errcode (h : HostAgent) (s : State) : (s.withHost h).errcode = s.errcode := rfl
@[simp] theorem withHost_errpos (h : HostAgent) (s : State) : (s.withHost h).errpos = s.errpos := rfl
@[simp] theorem withHost_arg0 (h : HostAgent) (s : State) : (s.withHost h).arg0 = s.arg0 := rfl
@[simp] theorem withHost_arg1 (h : HostAgent) (s : State) : (s.withHost h).arg1 = s.arg1 := rfl
@[simp] theorem withHost_chrIn0 (h : HostAgent) (s : State) : (s.withHost h).chrIn0 = s.chrIn0 := rfl
@[simp] theorem withHost_chrIn1 (h : HostAgent) (s : State) : (s.withHost h).chrIn1 = s.chrIn1 := rfl
@[simp] theorem withHost_result (h : HostAgent) (s : State) : (s.withHost h).result = s.result := rfl
@[simp] theorem withHost_chrOut0 (h : HostAgent) (s : State) : (s.withHost h).chrOut0 = s.chrOut0 := rfl
@[simp] theorem withHost_chrOut1 (h : HostAgent) (s : State) : (s.withHost h).chrOut1 = s.chrOut1 := rfl
@[simp] theorem withHost_steps (h : HostAgent) (s : State) : (s.withHost h).steps = s.steps := rfl
@[simp] theorem withHost_eng (h : HostAgent) (s : State) : (s.withHost h).eng = s.eng := rfl
@[simp] theorem withHost_la0 (h : HostAgent) (s : State) : (s.withHost h).la0 = s.la0 := rfl
@[simp] theorem withHost_la1 (h : HostAgent) (s : State) : (s.withHost h).la1 = s.la1 := rfl
@[simp] theorem withHost_lc0 (h : HostAgent) (s : State) : (s.withHost h).lc0 = s.lc0 := rfl
@[simp] theorem withHost_lc1 (h : HostAgent) (s : State) : (s.withHost h).lc1 = s.lc1 := rfl
@[simp] theorem withHost_rst (h : HostAgent) (s : State) : (s.withHost h).rst = s.rst := rfl
@[simp] theorem withHost_reply (h : HostAgent) (s : State) : (s.withHost h).reply = s.reply := rfl
@[simp] theorem withHost_host (h : HostAgent) (s : State) : (s.withHost h).host = h := rfl
@[simp] theorem withHost_schedule (h : HostAgent) (s : State) : (s.withHost h).schedule = s.schedule := rfl
@[simp] theorem withHost_draws (h : HostAgent) (s : State) : (s.withHost h).draws = s.draws := rfl

end withHost

section rest

@[simp] theorem rest_tables (s : State) : (s.rest).tables = s.tables := rfl
@[simp] theorem rest_ie (s : State) : (s.rest).ie = s.ie := rfl
@[simp] theorem rest_cmd (s : State) : (s.rest).cmd = s.cmd := rfl
@[simp] theorem rest_done (s : State) : (s.rest).done = s.done := rfl
@[simp] theorem rest_err (s : State) : (s.rest).err = s.err := rfl
@[simp] theorem rest_ovr (s : State) : (s.rest).ovr = s.ovr := rfl
@[simp] theorem rest_errcode (s : State) : (s.rest).errcode = s.errcode := rfl
@[simp] theorem rest_errpos (s : State) : (s.rest).errpos = s.errpos := rfl
@[simp] theorem rest_arg0 (s : State) : (s.rest).arg0 = s.arg0 := rfl
@[simp] theorem rest_arg1 (s : State) : (s.rest).arg1 = s.arg1 := rfl
@[simp] theorem rest_chrIn0 (s : State) : (s.rest).chrIn0 = s.chrIn0 := rfl
@[simp] theorem rest_chrIn1 (s : State) : (s.rest).chrIn1 = s.chrIn1 := rfl
@[simp] theorem rest_result (s : State) : (s.rest).result = s.result := rfl
@[simp] theorem rest_chrOut0 (s : State) : (s.rest).chrOut0 = s.chrOut0 := rfl
@[simp] theorem rest_chrOut1 (s : State) : (s.rest).chrOut1 = s.chrOut1 := rfl
@[simp] theorem rest_steps (s : State) : (s.rest).steps = s.steps := rfl
@[simp] theorem rest_eng (s : State) : (s.rest).eng = s.eng := rfl
@[simp] theorem rest_la0 (s : State) : (s.rest).la0 = s.la0 := rfl
@[simp] theorem rest_la1 (s : State) : (s.rest).la1 = s.la1 := rfl
@[simp] theorem rest_lc0 (s : State) : (s.rest).lc0 = s.lc0 := rfl
@[simp] theorem rest_lc1 (s : State) : (s.rest).lc1 = s.lc1 := rfl
@[simp] theorem rest_rst (s : State) : (s.rest).rst = s.rst := rfl
@[simp] theorem rest_reply (s : State) : (s.rest).reply = s.reply := rfl
@[simp] theorem rest_host (s : State) : (s.rest).host = s.host := rfl
@[simp] theorem rest_schedule (s : State) : (s.rest).schedule = s.schedule.tail := rfl
@[simp] theorem rest_draws (s : State) : (s.rest).draws = s.draws := rfl

end rest

section deassertReset

@[simp] theorem deassertReset_tables (s : State) : (s.deassertReset).tables = s.tables := rfl
@[simp] theorem deassertReset_ie (s : State) : (s.deassertReset).ie = s.ie := rfl
@[simp] theorem deassertReset_cmd (s : State) : (s.deassertReset).cmd = s.cmd := rfl
@[simp] theorem deassertReset_done (s : State) : (s.deassertReset).done = s.done := rfl
@[simp] theorem deassertReset_err (s : State) : (s.deassertReset).err = s.err := rfl
@[simp] theorem deassertReset_ovr (s : State) : (s.deassertReset).ovr = s.ovr := rfl
@[simp] theorem deassertReset_errcode (s : State) : (s.deassertReset).errcode = s.errcode := rfl
@[simp] theorem deassertReset_errpos (s : State) : (s.deassertReset).errpos = s.errpos := rfl
@[simp] theorem deassertReset_arg0 (s : State) : (s.deassertReset).arg0 = s.arg0 := rfl
@[simp] theorem deassertReset_arg1 (s : State) : (s.deassertReset).arg1 = s.arg1 := rfl
@[simp] theorem deassertReset_chrIn0 (s : State) : (s.deassertReset).chrIn0 = s.chrIn0 := rfl
@[simp] theorem deassertReset_chrIn1 (s : State) : (s.deassertReset).chrIn1 = s.chrIn1 := rfl
@[simp] theorem deassertReset_result (s : State) : (s.deassertReset).result = s.result := rfl
@[simp] theorem deassertReset_chrOut0 (s : State) : (s.deassertReset).chrOut0 = s.chrOut0 := rfl
@[simp] theorem deassertReset_chrOut1 (s : State) : (s.deassertReset).chrOut1 = s.chrOut1 := rfl
@[simp] theorem deassertReset_steps (s : State) : (s.deassertReset).steps = s.steps := rfl
@[simp] theorem deassertReset_eng (s : State) : (s.deassertReset).eng = s.eng := rfl
@[simp] theorem deassertReset_la0 (s : State) : (s.deassertReset).la0 = s.la0 := rfl
@[simp] theorem deassertReset_la1 (s : State) : (s.deassertReset).la1 = s.la1 := rfl
@[simp] theorem deassertReset_lc0 (s : State) : (s.deassertReset).lc0 = s.lc0 := rfl
@[simp] theorem deassertReset_lc1 (s : State) : (s.deassertReset).lc1 = s.lc1 := rfl
@[simp] theorem deassertReset_rst (s : State) : (s.deassertReset).rst = false := rfl
@[simp] theorem deassertReset_reply (s : State) : (s.deassertReset).reply = s.reply := rfl
@[simp] theorem deassertReset_host (s : State) : (s.deassertReset).host = s.host := rfl
@[simp] theorem deassertReset_schedule (s : State) : (s.deassertReset).schedule = s.schedule := rfl
@[simp] theorem deassertReset_draws (s : State) : (s.deassertReset).draws = s.draws := rfl

end deassertReset

section assertReset

@[simp] theorem assertReset_tables (s : State) : (s.assertReset).tables = s.tables := rfl
@[simp] theorem assertReset_ie (s : State) : (s.assertReset).ie = false := rfl
@[simp] theorem assertReset_cmd (s : State) : (s.assertReset).cmd = 0 := rfl
@[simp] theorem assertReset_done (s : State) : (s.assertReset).done = false := rfl
@[simp] theorem assertReset_err (s : State) : (s.assertReset).err = false := rfl
@[simp] theorem assertReset_ovr (s : State) : (s.assertReset).ovr = false := rfl
@[simp] theorem assertReset_errcode (s : State) : (s.assertReset).errcode = .none := rfl
@[simp] theorem assertReset_errpos (s : State) : (s.assertReset).errpos = 0 := rfl
@[simp] theorem assertReset_arg0 (s : State) : (s.assertReset).arg0 = 0 := rfl
@[simp] theorem assertReset_arg1 (s : State) : (s.assertReset).arg1 = 0 := rfl
@[simp] theorem assertReset_chrIn0 (s : State) : (s.assertReset).chrIn0 = 0 := rfl
@[simp] theorem assertReset_chrIn1 (s : State) : (s.assertReset).chrIn1 = 0 := rfl
@[simp] theorem assertReset_result (s : State) : (s.assertReset).result = 0 := rfl
@[simp] theorem assertReset_chrOut0 (s : State) : (s.assertReset).chrOut0 = 0 := rfl
@[simp] theorem assertReset_chrOut1 (s : State) : (s.assertReset).chrOut1 = 0 := rfl
@[simp] theorem assertReset_steps (s : State) : (s.assertReset).steps = 0 := rfl
@[simp] theorem assertReset_eng (s : State) : (s.assertReset).eng = .idle := rfl
@[simp] theorem assertReset_la0 (s : State) : (s.assertReset).la0 = Config.freeWord s.draws := rfl
@[simp] theorem assertReset_la1 (s : State) : (s.assertReset).la1 = Config.freeWord (s.draws + 1) := rfl
@[simp] theorem assertReset_lc0 (s : State) : (s.assertReset).lc0 = Config.freeWord (s.draws + 2) := rfl
@[simp] theorem assertReset_lc1 (s : State) : (s.assertReset).lc1 = Config.freeWord (s.draws + 3) := rfl
@[simp] theorem assertReset_rst (s : State) : (s.assertReset).rst = true := rfl
@[simp] theorem assertReset_reply (s : State) : (s.assertReset).reply = none := rfl
@[simp] theorem assertReset_host (s : State) : (s.assertReset).host = s.host := rfl
@[simp] theorem assertReset_schedule (s : State) : (s.assertReset).schedule = s.schedule := rfl
@[simp] theorem assertReset_draws (s : State) : (s.assertReset).draws = s.draws + 4 := rfl

end assertReset

end Sys2Proof.Machine
end

