-- ==== Sys2Proof/Laws/Ops.lean ====
section
/-! SUPPORT. One lemma per shared operation that says once everything it can do: register accesses, bus accesses, the host's operations. -/

namespace Sys2Proof.Machine

/-! ### The register map -/

@[simp] theorem regAt_offset (r : Reg) : regAt r.offset = some r := by cases r <;> rfl

theorem offset_aligned (r : Reg) : r.offset.toNat % 4 = 0 := by cases r <;> rfl

/-- The host's own accesses hit the window at their offset, wherever the block stands. -/
theorem windowOffset_base (t : Tables) (off : Offset) : windowOffset t (baseOf t + off.toNat) = some off := by
  have h := off.isLt
  have e : baseOf t + off.toNat - baseOf t = off.toNat := by omega
  unfold windowOffset
  rw [if_pos ⟨by omega, by omega⟩, e, BitVec.ofNat_toNat, BitVec.setWidth_eq]

/-- Where a bus address inside the window lands. -/
theorem windowOffset_eq_some {t : Tables} {addr : Nat} {off : Offset} (h : windowOffset t addr = some off) :
    addr = baseOf t + off.toNat := by
  unfold windowOffset at h
  split at h
  · rename_i hin
    obtain rfl := Option.some.inj h
    rw [BitVec.toNat_ofNat, Nat.mod_eq_of_lt (by omega)]
    omega
  · exact absurd h (by simp)

/-- Outside the 64 bytes at `BASE` an address has no offset (spec 20_memory R41). -/
theorem windowOffset_eq_none {t : Tables} {addr : Nat} (h : addr < baseOf t ∨ baseOf t + 0x40 ≤ addr) :
    windowOffset t addr = none := by
  unfold windowOffset
  rw [if_neg (by omega)]

/-! ### Admission -/

/-- An access has no problem exactly when it is admitted (spec 20_memory R42). -/
theorem busProblem_eq_none_iff (s : State) (off : Offset) (a : Access) :
    s.busProblem off a = none ↔ Admitted s off a := by
  unfold State.busProblem Admitted
  cases s.rst <;> by_cases h1 : a.size = 2#2 <;> by_cases h2 : off.toNat % 4 = 0 <;>
    by_cases h3 : a.be = 15#4 <;> simp [h1, h2, h3]

theorem admitted_memRead (t : Tables) (r : Reg) {s : State} (h : s.rst = false) :
    Admitted s r.offset (memRead t r.offset) := ⟨h, rfl, offset_aligned r, rfl⟩

theorem admitted_memWrite (t : Tables) (r : Reg) (v : Word) {s : State} (h : s.rst = false) :
    Admitted s r.offset (memWrite t r.offset v) := ⟨h, rfl, offset_aligned r, rfl⟩

/-! ### Reads and writes of the window -/

/-- A read leaves the state alone, but for the count of free draws (10_state R36, 20_memory R47). -/
theorem readOffset_state (off : Offset) (s : State) : (s.readOffset off).2 = s ∨ (s.readOffset off).2 = s.drawn := by
  unfold State.readOffset
  split
  · exact .inl rfl
  · split
    · exact .inr rfl
    · exact .inl rfl

/-- Everything a register write can do (20_memory R42). -/
theorem writeReg_cases (r : Reg) (v : Word) (s : State) :
    s.writeReg r v = s ∨ (r = .ctrl ∧ s.writeReg r v = { s with ie := v.getLsbD 0 }) ∨
    (r = .cmd ∧ s.eng = .busy ∧ s.writeReg r v = s.overrun) ∨
    (r = .cmd ∧ s.eng = .idle ∧ s.writeReg r v = s.accept v) ∨
    (r = .status ∧ s.writeReg r v = s.clearStatus v) ∨
    (r = .arg0 ∧ s.writeReg r v = { s with arg0 := v }) ∨ (r = .arg1 ∧ s.writeReg r v = { s with arg1 := v }) ∨
    (r = .chrIn0 ∧ s.writeReg r v = { s with chrIn0 := v }) ∨
    (r = .chrIn1 ∧ s.writeReg r v = { s with chrIn1 := v }) := by
  cases r <;> cases h : s.eng <;> simp [State.writeReg, State.requestCommand, h]

/-- A write at an offset is a register write, or nothing at a reserved offset (10_state R31). -/
theorem writeOffset_cases (off : Offset) (v : Word) (s : State) :
    (regAt off = none ∧ s.writeOffset off v = s) ∨ ∃ r, regAt off = some r ∧ s.writeOffset off v = s.writeReg r v := by
  unfold State.writeOffset
  cases h : regAt off with
  | none => exact .inl ⟨rfl, rfl⟩
  | some r => exact .inr ⟨r, rfl, rfl⟩

@[simp] theorem writeOffset_reg (r : Reg) (v : Word) (s : State) : s.writeOffset r.offset v = s.writeReg r v := by
  simp [State.writeOffset]

/-! ### Bus accesses -/

/-- An access that is not admitted is answered with an error and changes nothing (20_memory R44). -/
theorem present_problem {s : State} {off : Offset} {a : Access} {why : BusErrorKind}
    (h : s.busProblem off a = some why) : s.present off a = (.error why 0, s) := by
  simp [State.present, h]

theorem present_write {s : State} {off : Offset} {a : Access} (h : Admitted s off a) (w : a.write = true) :
    s.present off a = (.done, s.writeOffset off a.wdata) := by
  simp [State.present, (busProblem_eq_none_iff s off a).2 h, w]

theorem present_read {s : State} {off : Offset} {a : Access} (h : Admitted s off a) (w : a.write = false) :
    s.present off a = (.data (s.readOffset off).1, (s.readOffset off).2) := by
  simp [State.present, (busProblem_eq_none_iff s off a).2 h, w]

/-- An access outside the window never reaches the block (20_memory R41). -/
theorem busAccess_outside {s : State} {a : Access} (h : windowOffset s.tables a.addr = none) :
    busAccess a s = .next s := by simp [busAccess, h]

theorem busAccess_write {s : State} {a : Access} {off : Offset} (h : windowOffset s.tables a.addr = some off)
    (ad : Admitted s off a) (w : a.write = true) :
    busAccess a s = .next ((s.writeOffset off a.wdata).answered .done) := by
  simp [busAccess, h, present_write ad w]

theorem busAccess_read {s : State} {a : Access} {off : Offset} (h : windowOffset s.tables a.addr = some off)
    (ad : Admitted s off a) (w : a.write = false) :
    busAccess a s = .next ((s.readOffset off).2.answered (.data (s.readOffset off).1)) := by
  simp [busAccess, h, present_read ad w]

theorem busAccess_problem {s : State} {a : Access} {off : Offset} {why : BusErrorKind}
    (h : windowOffset s.tables a.addr = some off) (p : s.busProblem off a = some why) :
    busAccess a s = .fault (.busError why) := by
  simp [busAccess, h, present_problem p]

/-- Everything an access that gives a next state can do. -/
theorem busAccess_next {s t : State} {a : Access} (h : busAccess a s = .next t) :
    t = s ∨
    (∃ off, windowOffset s.tables a.addr = some off ∧ Admitted s off a ∧ a.write = true ∧
      t = (s.writeOffset off a.wdata).answered .done) ∨
    (∃ off, windowOffset s.tables a.addr = some off ∧ Admitted s off a ∧ a.write = false ∧
      (t = s.answered (.data (s.readOffset off).1) ∨ t = s.drawn.answered (.data (s.readOffset off).1))) := by
  cases hw : windowOffset s.tables a.addr with
  | none =>
    rw [busAccess_outside hw] at h
    exact .inl (Host.Outcome.next.inj h).symm
  | some off =>
    cases hp : s.busProblem off a with
    | some why => rw [busAccess_problem hw hp] at h; exact absurd h (by simp)
    | none =>
      have ad := (busProblem_eq_none_iff s off a).1 hp
      cases wr : a.write with
      | true =>
        rw [busAccess_write hw ad wr] at h
        exact .inr (.inl ⟨off, rfl, ad, rfl, (Host.Outcome.next.inj h).symm⟩)
      | false =>
        rw [busAccess_read hw ad wr] at h
        obtain rfl := Host.Outcome.next.inj h
        refine .inr (.inr ⟨off, rfl, ad, rfl, ?_⟩)
        rcases readOffset_state off s with e | e
        · exact .inl (by rw [e])
        · exact .inr (by rw [e])

/-- The host's own write, with `rst` deasserted. -/
theorem busAccess_memWrite {s : State} (r : Reg) (v : Word) (h : s.rst = false) :
    busAccess (memWrite s.tables r.offset v) s = .next ((s.writeReg r v).answered .done) := by
  rw [busAccess_write (windowOffset_base s.tables r.offset) (admitted_memWrite s.tables r v h) rfl]
  simp [memWrite]

/-- The host's own read, with `rst` deasserted. -/
theorem busAccess_memRead {s : State} (r : Reg) (h : s.rst = false) :
    busAccess (memRead s.tables r.offset) s
      = .next ((s.readOffset r.offset).2.answered (.data (s.readOffset r.offset).1)) :=
  busAccess_read (windowOffset_base s.tables r.offset) (admitted_memRead s.tables r h) rfl

/-! ### The host's program -/

/-- A host operation without a bus access changes the host agent only. -/
theorem hostJump_next {s t : State} {l : Nat} (h : hostJump l s = .next t) : ∃ g, t = s.withHost g := by
  unfold hostJump at h
  split at h
  · exact ⟨_, (Host.Outcome.next.inj h).symm⟩
  · exact absurd h (by simp)

theorem hostBranch_next {s t : State} {b : Bool} {l : Nat} (h : hostBranch b l s = .next t) : ∃ g, t = s.withHost g := by
  unfold hostBranch at h
  split at h
  · exact hostJump_next h
  · exact ⟨_, (Host.Outcome.next.inj h).symm⟩

/-- A read's effect on the host: the data, or nothing. -/
theorem hostRead_cases (r : Reg) (d : Fin 8) (s : State) : hostRead r d s = s ∨ ∃ g, hostRead r d s = s.withHost g := by
  unfold hostRead
  split
  · exact .inr ⟨_, rfl⟩
  · exact .inl rfl

/-- Everything a host operation that gives a next state can do: only `W` and `R` reach the block, by one access each. -/
theorem hostOp_next {s t : State} {op : HostOp} (h : hostOp op s = .next t) :
    t = s ∨ (∃ g, t = s.withHost g) ∨
    (∃ r src u, op = .write r src ∧ busAccess (memWrite s.tables r.offset (s.host.source src)) s = .next u ∧
      t = hostWrote r (s.host.source src) u) ∨
    (∃ r d u, op = .read r d ∧ busAccess (memRead s.tables r.offset) s = .next u ∧ t = hostRead r d u) := by
  cases op with
  | write r src =>
    cases hb : busAccess (memWrite s.tables r.offset (s.host.source src)) s with
    | next u => simp only [hostOp, hb, andThen] at h; exact .inr (.inr (.inl ⟨r, src, u, rfl, hb, (Host.Outcome.next.inj h).symm⟩))
    | fault f => simp only [hostOp, hb, andThen] at h; exact absurd h (by simp)
    | refused f => simp only [hostOp, hb, andThen] at h; exact absurd h (by simp)
  | read r d =>
    cases hb : busAccess (memRead s.tables r.offset) s with
    | next u => simp only [hostOp, hb, andThen] at h; exact .inr (.inr (.inr ⟨r, d, u, rfl, hb, (Host.Outcome.next.inj h).symm⟩))
    | fault f => simp only [hostOp, hb, andThen] at h; exact absurd h (by simp)
    | refused f => simp only [hostOp, hb, andThen] at h; exact absurd h (by simp)
  | bnz a m l => exact .inr (.inl (hostBranch_next h))
  | bz a m l => exact .inr (.inl (hostBranch_next h))
  | xor d a b => exact .inr (.inl ⟨_, (Host.Outcome.next.inj h).symm⟩)
  | jump l => exact .inr (.inl (hostJump_next h))
  | waitIrq =>
    simp only [hostOp] at h
    split at h
    · exact .inr (.inl ⟨_, (Host.Outcome.next.inj h).symm⟩)
    · exact .inl (Host.Outcome.next.inj h).symm
  | halt => exact .inr (.inl ⟨_, (Host.Outcome.next.inj h).symm⟩)
  | label l => exact .inr (.inl ⟨_, (Host.Outcome.next.inj h).symm⟩)

/-! ### Building the block -/

/-- An alphabet is built exactly from 32 pairwise distinct bytes (00_scope R6). -/
theorem alphabetOfBytes_ok {bs : List Byte} (h : bs.length = 32) (d : bs.Nodup) :
    alphabetOfBytes bs = .ok { symbols := bs, size := h, distinct := d } := by
  simp [alphabetOfBytes, h, d]

end Sys2Proof.Machine
end

