-- ==== Sys2Proof/Laws/Exec.lean ====
section
/-! SUPPORT. What the meanings share: every command is a completion; and what a walk says of its value. -/

namespace Sys2Proof.Machine

/-- Finishing completes, or (for a walk without a value) changes nothing. -/
theorem finish_cases (c : Option Completion) (s : State) : s.finish c = s ∨ ∃ d, c = some d ∧ s.finish c = s.complete d := by
  cases c with
  | none => exact .inl rfl
  | some d => exact .inr ⟨d, rfl, rfl⟩

@[simp] theorem finish_some (c : Completion) (s : State) : s.finish (some c) = s.complete c := rfl

/-- The completion a command computes (spec 30_encoding R61), as a function of the tables and the latch. -/
def completionOf (i : Instr) (s : State) : Option Completion :=
  match i with
  | .rfn _ => some (.ok (zextHalf (roundFn s.tables.premultiply s.opX s.opK)) 0 0 0)
  | .rndf _ =>
    some (.ok (joinHalves (roundF s.tables.premultiply s.opL s.opR s.opK)) 0 0 0)
  | .rndi _ =>
    some (.ok (joinHalves (roundI s.tables.premultiply s.opL s.opR s.opK)) 0 0 0)
  | .permf _ => some (.ok (encode32 s.tables s.opValue) 0 0 1)
  | .permi _ => some (.ok (decode32 s.tables s.opValue) 0 0 1)
  | .walkf _ => if inRange s.opValue then walkCompletion (walkF s.tables s.opValue) else some (.err .outOfRange 0)
  | .walki _ => if inRange s.opValue then walkCompletion (walkI s.tables s.opValue) else some (.err .outOfRange 0)
  | .enc _ =>
    if inRange s.opValue then (walkF s.tables s.opValue).map (encCompletion s.tables.alphabet)
    else some (.err .outOfRange 0)
  | .dec len => decCompletion len s

/-- Every command is one completion step: it gives a next state, and writes only what `complete` writes. -/
theorem exec_eq_finish (i : Instr) (s : State) : exec i s = .next (s.finish (completionOf i s)) := by
  cases i <;> rfl

/-- The running command, legal or not, is one completion step. -/
theorem runCommand_next (s : State) : ∃ c, runCommand s = .next (s.finish c) := by
  unfold runCommand
  split
  · rename_i i _; exact ⟨_, exec_eq_finish i s⟩
  · exact ⟨some (.err .illegalCommand 0), rfl⟩

/-- `complete` with `Ok` is what the statements call `succeeded`. -/
theorem complete_eq_succeeded (r c0 c1 n : Word) (s : State) : s.complete (.ok r c0 c1 n) = s.succeeded r c0 c1 n := rfl

/-- `complete` with an error code is what the statements call `failed`. -/
theorem complete_eq_failed {code : ErrCode} (h : code ≠ .none) (pos : BitVec 3) (s : State) :
    s.complete (.err code pos) = s.failed code pos := by
  cases code <;> first | exact absurd rfl h | rfl

/-- A value is below `N` (00_scope R7). -/
theorem inRange_iff (v : Word) : inRange v = true ↔ v.toNat < 0x40000000 := decide_eq_true_iff

/-- A walk with a value has taken that many applications more, and stopped at the first value below `N` (42_cycle_walk R78). -/
theorem walk_spec {f : Word → Word} : ∀ {fuel : Nat} {v w : Word} {n m : Nat}, walk f fuel v n = some (w, m) →
    ∃ k, m = n + k ∧ k ≤ fuel ∧ WalkEnds f v w k := by
  intro fuel
  induction fuel with
  | zero => intro v w n m h; exact absurd h (by simp [walk])
  | succ fuel ih =>
    intro v w n m h
    unfold walk at h
    split at h
    · rename_i hr
      obtain ⟨rfl, rfl⟩ := Prod.mk.inj (Option.some.inj h)
      exact ⟨1, rfl, by omega, ⟨le_refl 1, rfl, (inRange_iff _).1 hr, fun j h1 h2 => by omega⟩⟩
    · rename_i hr
      obtain ⟨k, rfl, hk, we⟩ := ih h
      refine ⟨k + 1, by omega, by omega, ⟨by omega, we.value, we.below, fun j h1 h2 => ?_⟩⟩
      cases j with
      | zero => omega
      | succ j =>
        cases j with
        | zero => exact Nat.le_of_not_lt fun lt => hr ((inRange_iff _).2 lt)
        | succ j => exact we.first (j + 1) (by omega) (by omega)

/-- A walk's value and step count are determined by where it starts. -/
theorem WalkEnds.unique {f : Word → Word} {v w w' : Word} {n n' : Nat} (h : WalkEnds f v w n) (h' : WalkEnds f v w' n') :
    w = w' ∧ n = n' := by
  have key : n = n' := by
    rcases Nat.lt_trichotomy n n' with lt | eq | gt
    · have := h'.first n h.atLeastOnce lt; rw [h.value] at this; have := h.below; omega
    · exact eq
    · have := h.first n' h'.atLeastOnce gt; rw [h'.value] at this; have := h'.below; omega
  exact ⟨by rw [← h.value, ← h'.value, key], key⟩

end Sys2Proof.Machine
end

