-- ==== Sys2Proof/Laws/PerInstr.lean ====
section
/-! SUPPORT. One statement about each command as syntax: where its fields stand in its word. -/

namespace Sys2Proof.Laws.EncodedFields

/-- A well-formed command's word has its `OP` in `[3:0]`, its `LEN` in `[7:4]` and zeros above (spec 30_encoding R57, R59). -/
def Statement (i : Instr) : Prop :=
  i.wellFormed = true →
    (opField (encode i)).toNat = i.opcode ∧ (lenField (encode i)).toNat = i.len ∧ rsvField (encode i) = 0

/-- The fields of a word put together from a `LEN` and an `OP`. -/
theorem fields_of_parts (len op : Nat) (hl : len < 16) (ho : op < 16) :
    (opField ((0 : BitVec 24) ++ BitVec.ofNat 4 len ++ BitVec.ofNat 4 op)).toNat = op ∧
    (lenField ((0 : BitVec 24) ++ BitVec.ofNat 4 len ++ BitVec.ofNat 4 op)).toNat = len ∧
    rsvField ((0 : BitVec 24) ++ BitVec.ofNat 4 len ++ BitVec.ofNat 4 op) = 0 := by
  interval_cases len <;> interval_cases op <;> decide

theorem rfn (n : Nat) : Statement (.rfn n) := fun h => fields_of_parts n 1 (of_decide_eq_true h) (by decide)
theorem rndf (n : Nat) : Statement (.rndf n) := fun h => fields_of_parts n 2 (of_decide_eq_true h) (by decide)
theorem rndi (n : Nat) : Statement (.rndi n) := fun h => fields_of_parts n 3 (of_decide_eq_true h) (by decide)
theorem permf (n : Nat) : Statement (.permf n) := fun h => fields_of_parts n 4 (of_decide_eq_true h) (by decide)
theorem permi (n : Nat) : Statement (.permi n) := fun h => fields_of_parts n 5 (of_decide_eq_true h) (by decide)
theorem walkf (n : Nat) : Statement (.walkf n) := fun h => fields_of_parts n 6 (of_decide_eq_true h) (by decide)
theorem walki (n : Nat) : Statement (.walki n) := fun h => fields_of_parts n 7 (of_decide_eq_true h) (by decide)
theorem enc (n : Nat) : Statement (.enc n) := fun h => fields_of_parts n 8 (of_decide_eq_true h) (by decide)
theorem dec (n : Nat) : Statement (.dec n) := fun h => fields_of_parts n 9 (of_decide_eq_true h) (by decide)

end Sys2Proof.Laws.EncodedFields
end

