-- ==== Sys2Proof/Laws/Step.lean ====
section
/-! SUPPORT. What one step can do, said once. -/

namespace Sys2Proof.Machine

theorem nextEvent_nil {s : State} (h : s.schedule = []) : nextEvent s = (.engineTurn, s) := by simp [nextEvent, h]

theorem nextEvent_cons {s : State} {e : Event} {es : List Event} (h : s.schedule = e :: es) :
    nextEvent s = (e, { s with schedule := es }) := by simp [nextEvent, State.rest, h]

/-- With an event at hand, a step is that event. -/
theorem step_cons {s : State} {e : Event} {es : List Event} (h : s.schedule = e :: es) :
    step s = handle e { s with schedule := es } := by simp [step, nextEvent_cons h]

/-- With no event left, a step is the engine's turn (spec 70_reset R123). -/
theorem step_nil {s : State} (h : s.schedule = []) : step s = engineTurn s := by simp [step, nextEvent_nil h, handle]

/-- An admitted read by any bus master: the register's value, or a free draw, in the reply. -/
theorem readNext_step {s : State} {off : Offset} {es : List Event} (h : ReadNext s off es) :
    step s = .next ((State.readOffset off { s with schedule := es }).2.answered
      (.data (State.readOffset off { s with schedule := es }).1)) := by
  obtain ⟨a, h1, h2, h3, h4⟩ := h
  rw [step_cons h1]
  exact busAccess_read (s := { s with schedule := es }) h2 h4 h3

/-- An admitted write by any bus master: the register's write, and the reply. -/
theorem writeNext_step {s : State} {off : Offset} {v : Word} {es : List Event} (h : WriteNext s off v es) :
    step s = .next ((State.writeOffset off v { s with schedule := es }).answered .done) := by
  obtain ⟨a, h1, h2, h3, rfl, h4⟩ := h
  rw [step_cons h1]
  exact busAccess_write (s := { s with schedule := es }) h2 h4 h3

theorem engineTurn_busy {s : State} (r : s.rst = false) (b : s.eng = .busy) : engineTurn s = runCommand s := by
  simp [engineTurn, r, b]

theorem engineTurn_idle {s : State} (b : s.eng = .idle) : engineTurn s = .next s := by
  simp [engineTurn, b]

/-- Everything the engine's turn can do. -/
theorem engineTurn_next {s t : State} (h : engineTurn s = .next t) :
    t = s ∨ (s.eng = .busy ∧ s.rst = false ∧ ∃ c, t = s.complete c) := by
  unfold engineTurn at h
  split at h
  · exact .inl (Host.Outcome.next.inj h).symm
  · rename_i hr
    split at h
    · rename_i hb
      obtain ⟨c, hc⟩ := runCommand_next s
      rw [hc] at h
      obtain rfl := Host.Outcome.next.inj h
      rcases finish_cases c s with e | ⟨d, _, e⟩
      · exact .inl e
      · exact .inr ⟨hb, by simpa using hr, d, e⟩
    · exact .inl (Host.Outcome.next.inj h).symm

/-- Everything an event that gives a next state can do to the block; the host agent apart, these are all the ways State changes. -/
theorem handle_next {e : Event} {s t : State} (h : handle e s = .next t) :
    (∃ g, t = s ∨ t = s.withHost g) ∨
    (e = .engineTurn ∧ s.eng = .busy ∧ s.rst = false ∧ ∃ c, t = s.complete c) ∨
    (∃ off v u, s.rst = false ∧ u = (s.writeOffset off v).answered .done ∧ ∃ g, t = u ∨ t = u.withHost g) ∨
    (∃ v u, (u = s.answered (.data v) ∨ u = s.drawn.answered (.data v)) ∧ ∃ g, t = u ∨ t = u.withHost g) ∨
    (e = .rstAssert ∧ t = s.assertReset) ∨ (e = .rstDeassert ∧ t = s.deassertReset) := by
  have bus : ∀ {a : Access} {u : State}, busAccess a s = .next u →
      u = s ∨ (∃ off v, s.rst = false ∧ u = (s.writeOffset off v).answered .done) ∨
      (∃ v, u = s.answered (.data v) ∨ u = s.drawn.answered (.data v)) := by
    intro a u hb
    rcases busAccess_next hb with rfl | ⟨off, _, ad, _, rfl⟩ | ⟨off, _, _, _, h'⟩
    · exact .inl rfl
    · exact .inr (.inl ⟨off, a.wdata, ad.1, rfl⟩)
    · exact .inr (.inr ⟨_, h'⟩)
  cases e with
  | hostTurn =>
    simp only [handle, hostTurn] at h
    split at h
    · exact .inl ⟨s.host, .inl (Host.Outcome.next.inj h).symm⟩
    · split at h
      · exact .inl ⟨s.host, .inl (Host.Outcome.next.inj h).symm⟩
      · rcases hostOp_next h with rfl | ⟨g, rfl⟩ | ⟨r, src, u, _, hb, rfl⟩ | ⟨r, d, u, _, hb, rfl⟩
        · exact .inl ⟨t.host, .inl rfl⟩
        · exact .inl ⟨g, .inr rfl⟩
        · rcases bus hb with rfl | ⟨off, v, hr, rfl⟩ | ⟨v, hu⟩
          · exact .inl ⟨_, .inr rfl⟩
          · exact .inr (.inr (.inl ⟨off, v, _, hr, rfl, _, .inr rfl⟩))
          · exact .inr (.inr (.inr (.inl ⟨v, u, hu, _, .inr rfl⟩)))
        · rcases hostRead_cases r d u with e | ⟨g, e⟩
          · rw [e]
            rcases bus hb with rfl | ⟨off, v, hr, rfl⟩ | ⟨v, hu⟩
            · exact .inl ⟨u.host, .inl rfl⟩
            · exact .inr (.inr (.inl ⟨off, v, _, hr, rfl, s.host, .inl rfl⟩))
            · exact .inr (.inr (.inr (.inl ⟨v, u, hu, s.host, .inl rfl⟩)))
          · rw [e]
            rcases bus hb with rfl | ⟨off, v, hr, rfl⟩ | ⟨v, hu⟩
            · exact .inl ⟨g, .inr rfl⟩
            · exact .inr (.inr (.inl ⟨off, v, _, hr, rfl, g, .inr rfl⟩))
            · exact .inr (.inr (.inr (.inl ⟨v, u, hu, g, .inr rfl⟩)))
  | engineTurn =>
    rcases engineTurn_next h with rfl | ⟨b, r, c, rfl⟩
    · exact .inl ⟨t.host, .inl rfl⟩
    · exact .inr (.inl ⟨rfl, b, r, c, rfl⟩)
  | access a =>
    rcases bus h with rfl | ⟨off, v, hr, rfl⟩ | ⟨v, hu⟩
    · exact .inl ⟨t.host, .inl rfl⟩
    · exact .inr (.inr (.inl ⟨off, v, _, hr, rfl, s.host, .inl rfl⟩))
    · exact .inr (.inr (.inr (.inl ⟨v, t, hu, s.host, .inl rfl⟩)))
  | rstAssert => exact .inr (.inr (.inr (.inr (.inl ⟨rfl, (Host.Outcome.next.inj h).symm⟩))))
  | rstDeassert => exact .inr (.inr (.inr (.inr (.inr ⟨rfl, (Host.Outcome.next.inj h).symm⟩))))

/-- A run of no steps ends where it starts. -/
theorem runs_zero (s : State) : Runs 0 s s := rfl

/-- How a run takes its first step. -/
theorem run_succ (M : Host.Core) (n : Nat) (s u : M.State) (h : M.step s = .next u) : M.run (n + 1) s = M.run n u := by
  simp only [Host.Core.run, h]

/-- A step, and then a run. -/
theorem runs_succ {n : Nat} {s u t : State} (h : step s = .next u) (r : Runs n u t) : Runs (n + 1) s t :=
  (run_succ Sys2Proof.core n s u h).trans r

end Sys2Proof.Machine
end

