-- ==== Sys2Proof/Tests/Slice0.lean ====
section
/-! SUPPORT. Tests: every expected value is from spec/95_test_vectors.md (its section or row stands above the test) or from the rule named. Last, the witnesses of the statements' hypotheses. -/

namespace Sys2Proof.Tests

open Sys2Proof.Machine

/-! ### Small states -/

/-- `EXA`. -/
def exA : Alphabet :=
  { symbols := [0x31, 0x32, 0x33, 0x34, 0x35, 0x36, 0x37, 0x38, 0x39] ++ [0x41, 0x42, 0x43, 0x44, 0x45, 0x46, 0x47, 0x48]
      ++ [0x4A, 0x4B, 0x4D, 0x4E, 0x50, 0x51, 0x52, 0x53, 0x54, 0x55, 0x56, 0x57, 0x58, 0x59, 0x5A] }

/-- `EXK1`, `EXA`, at `BASE = 0x140`. -/
def ex1 : Tables := { key0 := 0x1234, key1 := 0xABCD, premultiply := false, alphabet := exA, baseBlock := 5 }

/-- `EXK0`, `EXA`. -/
def ex0 : Tables := { ex1 with key0 := 0, key1 := 0 }

/-- The block after reset, with events to come. -/
def idle (es : List Event) : State := { State.resetWith ex1 with schedule := es }

/-- Busy with the word `c` and the latched operands. -/
def busyWith (c a0 a1 c0 c1 : Word) : State :=
  { State.resetWith ex1 with cmd := c, la0 := a0, la1 := a1, lc0 := c0, lc1 := c1, eng := .busy }

/-- A command on latched operands, under `EXK1` and `EXA`. -/
def run (i : Instr) (a0 a1 c0 c1 : Word) : Host.Outcome State Fault Refusal := exec i (busyWith (encode i) a0 a1 c0 c1)

/-- `RESULT`, `CHR_OUT0`, `CHR_OUT1`, `STEPS`, `STATUS` of a next state. -/
def shown (o : Host.Outcome State Fault Refusal) : Option (Word × Word × Word × Word × Word) :=
  match o with
  | .next s => some (s.result, s.chrOut0, s.chrOut1, s.steps, s.statusWord)
  | .fault _ => none
  | .refused _ => none

/-- Something of a next state. -/
def of {α : Type} (o : Host.Outcome State Fault Refusal) (f : State → α) : Option α :=
  match o with
  | .next s => some (f s)
  | .fault _ => none
  | .refused _ => none

/-- A 32-bit write at an offset. -/
def wr (off : Offset) (v : Word) : Event := .access (memWrite ex1 off v)

/-- A 32-bit read at an offset. -/
def rd (off : Offset) : Event := .access (memRead ex1 off)

/-! ### Decoding: words written out from 30_encoding R57, R59 -/

theorem test_decode_rfn : decode 0b00000000000000000000000000000001 = .ok (.rfn 0) := by decide
theorem test_decode_rndf : decode 0b00000000000000000000000000000010 = .ok (.rndf 0) := by decide
theorem test_decode_rndi : decode 0b00000000000000000000000000000011 = .ok (.rndi 0) := by decide
theorem test_decode_permf : decode 0b00000000000000000000000011110100 = .ok (.permf 15) := by decide
theorem test_decode_permi : decode 0b00000000000000000000000000000101 = .ok (.permi 0) := by decide
theorem test_decode_walkf : decode 0b00000000000000000000000000000110 = .ok (.walkf 0) := by decide
theorem test_decode_walki : decode 0b00000000000000000000000000000111 = .ok (.walki 0) := by decide
theorem test_decode_enc : decode 0b00000000000000000000000000001000 = .ok (.enc 0) := by decide
theorem test_decode_dec : decode 0b00000000000000000000000001101001 = .ok (.dec 6) := by decide
theorem test_decode_reserved_bit : decode 0x00000104 = .error .reservedBits ∧ decode 0x80000008 = .error .reservedBits := by decide
theorem test_decode_reserved_op :
    [0x0, 0xA, 0xB, 0xC, 0xD, 0xE, 0xF].all (fun w => decide (decode w = .error .reservedOpcode)) = true := by decide
theorem test_decode_table_word : decodeTableWord 32 0x69 = some (.dec 6) ∧ decodeTableWord 32 0xA = none ∧ decodeTableWord 8 0x168 = decodeTableWord 32 0x68 := by decide

/-! ### WellFormed: every check refuses something -/

theorem test_wellFormed_len : (Instr.dec 15).wellFormed = true ∧ (Instr.dec 16).wellFormed = false := by decide
theorem test_wellFormed_config : RawConfig.wellFormed ⟨0, 0, false, exA.symbols, 0x140⟩ = true := by decide
theorem test_illFormed_alphabet_size : RawConfig.wellFormed ⟨0, 0, false, exA.symbols.tail, 0x140⟩ = false := by decide
theorem test_illFormed_alphabet_equal : RawConfig.wellFormed ⟨0, 0, false, 0x5A :: exA.symbols.tail, 0x140⟩ = false := by decide
theorem test_illFormed_base : RawConfig.wellFormed ⟨0, 0, false, exA.symbols, 0x160⟩ = false := by decide
theorem test_wellFormed_program : hostProgramWellFormed [.label 3, .read .status 7, .bnz 7 0x1 3, .halt] = true := by decide
theorem test_illFormed_label_missing : hostProgramWellFormed [.jump 3] = false := by decide
theorem test_illFormed_label_twice : hostProgramWellFormed [.label 3, .label 3, .bz 0 1 3] = false := by decide
theorem test_build_refuses : State.build ⟨0, 0, false, exA.symbols.tail, 0⟩ = .refused .alphabetSize ∧
    State.build ⟨0, 0, false, 0x5A :: exA.symbols.tail, 0⟩ = .refused .alphabetNotDistinct ∧
    State.build ⟨0, 0, false, exA.symbols, 0x20⟩ = .refused .baseMisaligned := ⟨rfl, rfl, rfl⟩

/-! ### Commands -/

/-- Section 2.1. -/
theorem test_roundFn_premultiply : roundFn true 0x1234 0xABCD = 0x4879 ∧ roundFn true 0 0 = 0xE94F := by decide
/-- Section 2.6, row 1: the high halves are ignored. -/
theorem test_rfn : shown (run (.rfn 0) 0xFFFF1234 0xFFFFABCD 0 0) = some (0x4857, 0, 0, 0, 2) := by decide
/-- Section 2.1: one byte of `x` only. -/
theorem test_rfn_byte_order : shown (run (.rfn 15) 0x0100 0 0 0) = some (0x30CC, 0, 0, 0, 2) := by decide
/-- Section 2.2, row 1. -/
theorem test_rndf : shown (run (.rndf 0) 0x22221111 0xABCD 0 0) = some (0x2C0C2222, 0, 0, 0, 2) := by decide
/-- Section 2.2, row 1: RNDI is not RNDF. -/
theorem test_rndi : shown (run (.rndi 0) 0x22221111 0xABCD 0 0) = some (0x11112E4D, 0, 0, 0, 2) := by decide
/-- Section 2.6, row 3. -/
theorem test_rndi_key_high : shown (run (.rndi 0) 0x2C0C2222 0x5555ABCD 0 0) = some (0x22221111, 0, 0, 0, 2) := by decide
/-- Section 2.3: the order of the keys. -/
theorem test_permf : shown (run (.permf 15) 0 0 0 0) = some (0xEF53BB8B, 0, 0, 1, 2) := by decide
/-- Section 2.6: no range check. -/
theorem test_permf_no_range : shown (run (.permf 0) 0x40000000 0 0 0) = some (0x6545F14B, 0, 0, 1, 2) := by decide
/-- Section 2.3. -/
theorem test_permi : shown (run (.permi 0) 0xFFFFFFFF 0 0 0) = some (0xD6F49F0E, 0, 0, 1, 2) := by decide
/-- Section 2.4: the walk does not stop at its start, and stops at the first value below `N`. -/
theorem test_walkf : shown (run (.walkf 0) 0 0 0 0) = some (0x2CBE390E, 0, 0, 8, 2) := by decide
/-- Section 2.6. -/
theorem test_walkf_at_N : shown (run (.walkf 0) 0x40000000 0 0 0) = some (0, 0, 0, 0, 0x206) := by decide
/-- Section 2.4. -/
theorem test_walki : shown (run (.walki 0) 0 0 0 0) = some (0x0C0EE550, 0, 0, 3, 2) := by decide
/-- Section 2.6. -/
theorem test_walki_at_N : shown (run (.walki 0) 0x40000000 0 0 0) = some (0, 0, 0, 0, 0x206) := by decide
/-- Section 2.5, "F9FWCQ". -/
theorem test_enc : shown (run (.enc 0) 0 0 0 0) = some (0x2CBE390E, 0x57463946, 0x5143, 8, 2) := by decide
/-- Section 2.6. -/
theorem test_enc_at_N : shown (run (.enc 0) 0x40000000 0 0 0) = some (0, 0, 0, 0, 0x206) := by decide
/-- Section 2.6: characters 6 and 7 are not read. -/
theorem test_dec : shown (run (.dec 6) 0 0 0x57463946 0xFFFF5143) = some (0, 0, 0, 8, 2) := by decide
/-- Section 2.6: the lowest position, and the length before the characters. -/
theorem test_dec_errors : shown (run (.dec 6) 0 0 0x314F3131 0x314C) = some (0, 0, 0, 0, 0x2406) ∧
    shown (run (.dec 5) 0 0 0x49494949 0x4949) = some (0, 0, 0, 0, 0x306) := by decide
/-- Section 2.6: an illegal word, at the machine. -/
theorem test_illegal_word : shown (step (busyWith 0x159 0 0 0x57493946 0x5143)) = some (0, 0, 0, 0, 0x106) := by decide
/-- Section 2.4, under `EXK0` section 2.5: the keys are used. -/
theorem test_walkF_zero_keys : walkF ex0 0 = some (0x1F8105DA, 4) := by decide
/-- 70_reset R124: `1 + STEPS` for a walk, 1 for RFN and for an error. -/
theorem test_reference_cycles : referenceCycles (some (.walkf 0)) (.ok 0 0 0 8) = 9 ∧ referenceCycles (some (.rfn 0)) (.ok 0 0 0 0) = 1 ∧
    referenceCycles (some (.dec 5)) (.err .invalidLength 0) = 1 ∧ referenceCycles none (.err .illegalCommand 0) = 1 := by decide

/-! ### The window, section 2.7 (the row stands in the name) -/

theorem test_b1_info : of (step (idle [rd 0x00])) State.rdata? = some (some 0x01002026) := rfl
theorem test_b2_info_ignores_write : of (step (idle [wr 0x00 0xFFFFFFFF])) (infoWord ·.tables) = some 0x01002026 := rfl
theorem test_b3_reset : (idle []).statusWord = 0 ∧ (idle []).ctrlWord = 0 ∧ (idle []).cmd = 0 ∧ (idle []).result = 0 ∧ (idle []).irq = false := by decide
theorem test_b4_ctrl : of (step (idle [wr 0x04 0xFFFFFFFF])) State.ctrlWord = some 1 := rfl
theorem test_b5_reserved : of (step (idle [wr 0x30 0x12345678, rd 0x30])) (fun s => of (step s) State.rdata?) = some (some (some 0)) := rfl
theorem test_b6_misaligned : step (idle [rd 0x02]) = .fault (.busError .misaligned) ∧
    State.present 0x02 (memRead ex1 0x02) (idle []) = (.error .misaligned 0, idle []) := ⟨rfl, rfl⟩
theorem test_b7_halfword : step (idle [.access { memRead ex1 0x00 with size := 1 }]) = .fault (.busError .size) := rfl
theorem test_b8_lanes : step (idle [.access { memWrite ex1 0x10 7 with be := 0b0011 }]) = .fault (.busError .lanes) := rfl
/-- 20_memory R42: an access is admitted exactly with all four byte lanes enabled, a read as well. -/
theorem test_read_lanes : step (idle [.access { memRead ex1 0x10 with be := 0b0011 }]) = .fault (.busError .lanes) := rfl
theorem test_b9_arg1 : of (step (idle [wr 0x14 0xDEAD0000])) State.arg1 = some 0xDEAD0000 := rfl
theorem test_b10_b12_clear : of (.next { idle [] with done := true, err := true, errcode := .outOfRange })
      (fun s => (s.statusWord, (s.clearStatus 4).statusWord, ((s.clearStatus 4).clearStatus 2).statusWord, (s.clearStatus 0xFFFFFFFF).statusWord))
    = some (0x206, 0x202, 0x200, 0x200) := by decide
theorem test_b13_accept : of (step { idle [wr 0x08 1] with errcode := .outOfRange }) State.statusWord = some 1 := rfl
theorem test_b14_overrun : of (step { busyWith 0x8 0 0 0 0 with schedule := [wr 0x08 4] }) (fun s => (s.cmd, s.statusWord)) = some (0x8, 0x9) := by decide
/-- Row B15: the value is a free draw, so only its being drawn can be tested. -/
theorem test_b15_free_draw : of (step { busyWith 0x8 0 0 0 0 with schedule := [rd 0x20] }) State.rdata? = some (some (Config.freeWord 0)) := rfl
theorem test_b16_latched : of (step { busyWith 0x4 0 0 0 0 with schedule := [wr 0x10 0xFFFFFFFF] })
    (fun s => (s.arg0, of (step s) State.result)) = some (0xFFFFFFFF, some 0xEF53BB8B) := by decide
theorem test_b17_ovr : ({ idle [] with done := true, ovr := true } : State).statusWord = 0xA ∧
    (State.clearStatus 8 { idle [] with done := true, ovr := true }).statusWord = 2 := by decide
theorem test_b18_b19_irq : of (step { idle [wr 0x04 1] with done := true }) State.irq = some true := rfl
theorem test_b20_reset_while_busy : of (step { busyWith 0x8 0 0 0 0 with ie := true, arg0 := 5, schedule := [.rstAssert] })
    (fun s => (s.arg0, s.statusWord, s.irq, of (step s) State.done)) = some (0, 0, false, some false) := rfl
/-- 70_reset R110: while `rst` is asserted every access is a bus error. -/
theorem test_access_in_reset : step { idle [rd 0x00] with rst := true } = .fault (.busError .inReset) := rfl
/-- 20_memory R41: just below and just above the window. -/
theorem test_outside_window : step (idle [.access { memWrite ex1 0x10 7 with addr := 0x13C }]) = .next (idle []) ∧
    step (idle [.access { memWrite ex1 0x10 7 with addr := 0x180 }]) = .next (idle []) := ⟨rfl, rfl⟩

/-! ### The host -/

/-- 30_encoding R64: the expansion of `RUN ENC, 1`, the `POLL` label numbered 9. -/
theorem test_run_expands : Pseudo.expand 9 (.run (.enc 0) (.imm 1))
    = [.write .arg0 (.imm 1), .write .cmd (.imm 8), .label 9, .read .status 7, .bnz 7 1 9] := rfl
/-- 30_encoding R63: a write by the host, and its transaction. -/
theorem test_host_write : of (step { idle [.hostTurn] with host := { HostAgent.none with prog := [.write .arg0 (.imm 3)] } })
    (fun s => (s.arg0, s.host.pc, s.host.trace)) = some (3, 1, [.w 0x10 3]) := rfl
/-- A branch to a label that is not there. -/
theorem test_host_label_missing : step { idle [.hostTurn] with host := { HostAgent.none with prog := [.jump 3] } } = .refused .unknownLabel := rfl

/-! ### The interface -/

/-- A fetched word runs as the first command after reset (10_state R39, 70_reset R114: on zero operands). Section 2.1. -/
theorem test_withFetchWord : of (step (State.reset.withFetchWord 32 0x1)) (fun s => (s.result, s.statusWord)) = some (0x13F5, 2) := rfl

/-! ### Witnesses: for each statement with hypotheses, states and operands that meet them, at the ends of their ranges -/

/-- An admitted read at any word offset. -/
theorem readNext_at (s : State) (off : Offset) (es : List Event) (r : s.rst = false) (h : off.toNat % 4 = 0) :
    ReadNext { s with schedule := .access (memRead s.tables off) :: es } off es :=
  ⟨_, rfl, windowOffset_base s.tables off, rfl, r, rfl, h, rfl⟩

/-- An admitted write at any word offset. -/
theorem writeNext_at (s : State) (off : Offset) (v : Word) (es : List Event) (r : s.rst = false) (h : off.toNat % 4 = 0) :
    WriteNext { s with schedule := .access (memWrite s.tables off v) :: es } off v es :=
  ⟨_, rfl, windowOffset_base s.tables off, rfl, rfl, r, rfl, h, rfl⟩

theorem witness_EncodedCommandDecodesBack : (Instr.dec 15).wellFormed = true ∧ (Instr.rfn 0).wellFormed = true := by decide

theorem witness_DecodedWordEncodesBack : decode 0xF9 = .ok (.dec 15) ∧ decode 0x1 = .ok (.rfn 0) := by decide

theorem witness_OpcodeTableDecidesDecoding : (∃ r ∈ opcodeTable, r.matches 0xF1 = true) ∧
    (∃ r ∈ opcodeTable, r.matches 0x9 = true) ∧ ∀ r ∈ opcodeTable, r.matches 0xA = false := by decide

theorem witness_StepRunsDecodedCommand : (busyWith 0x69 0 0 0 0).rst = false ∧ (busyWith 0x69 0 0 0 0).eng = .busy ∧
    decode (busyWith 0x69 0 0 0 0).cmd = .ok (.dec 6) ∧ (busyWith 0x69 0 0 0 0).schedule = [] ∧
    ({ busyWith 0x69 0 0 0 0 with schedule := [.engineTurn, .hostTurn] } : State).schedule = .engineTurn :: [.hostTurn] := by decide

theorem witness_IllegalWordCompletesWithErrorOne : BitVec.extractLsb' 8 24 (0x104 : Word) ≠ 0 ∧
    BitVec.extractLsb' 0 4 (0 : Word) = 0 ∧ 0xA ≤ (BitVec.extractLsb' 0 4 (0xA : Word)).toNat ∧
    0xA ≤ (BitVec.extractLsb' 0 4 (0xF : Word)).toNat ∧
    (idle [wr 0x08 0x104]).rst = false ∧ (idle [wr 0x08 0x104]).eng = .idle ∧
    (idle [wr 0x08 0x104]).schedule = .access (memWrite (idle [wr 0x08 0x104]).tables 0x08 0x104) :: [] ∧
    (busyWith 0xF 0 0 0 0).rst = false ∧ (busyWith 0xF 0 0 0 0).eng = .busy ∧ (busyWith 0xF 0 0 0 0).cmd = 0xF ∧
    ({ busyWith 0xF 0 0 0 0 with schedule := [.engineTurn] } : State).schedule = .engineTurn :: [] := by decide

theorem witness_IdleEngineHasNoStep : (idle [.engineTurn]).eng = .idle ∧ (idle [.engineTurn]).schedule = .engineTurn :: [] := by decide

theorem witness_EveryAcceptedCommandCompletes : (busyWith 0x8 0x3FFFFFFF 0 0 0).rst = false ∧
    (busyWith 0x8 0x3FFFFFFF 0 0 0).eng = .busy ∧ (busyWith 0x8 0x3FFFFFFF 0 0 0).schedule = [] ∧
    ({ busyWith 0x8 0x3FFFFFFF 0 0 0 with schedule := [.engineTurn, .hostTurn] } : State).schedule = .engineTurn :: [.hostTurn] := by decide

theorem witness_CommandWriteIsAcceptedOrDropped :
    (∃ s : State, ∃ es, s.eng = .busy ∧ WriteNext s 0x08 0x4 es) ∧ ∃ s : State, ∃ es, s.eng = .idle ∧ WriteNext s 0x08 0x4 es :=
  ⟨⟨_, [], rfl, writeNext_at (busyWith 0x8 0 0 0 0) 0x08 0x4 [] rfl rfl⟩, ⟨_, [], rfl, writeNext_at (idle []) 0x08 0x4 [] rfl rfl⟩⟩

theorem witness_StatusWriteClearsWrittenOnes : ∃ s : State, ∃ es, s.done = true ∧ WriteNext s 0x0C 0xE es :=
  ⟨_, [], rfl, writeNext_at { idle [] with done := true } 0x0C 0xE [] rfl rfl⟩

theorem witness_ControlWriteSetsInterruptEnable : ∃ s t : State, ∃ es, s.eng = .busy ∧ WriteNext s 0x04 0xFFFFFFFF es ∧ ReadNext t 0x04 es :=
  ⟨_, _, [], rfl, writeNext_at (busyWith 0x8 0 0 0 0) 0x04 0xFFFFFFFF [] rfl rfl, readNext_at (idle []) 0x04 [] rfl rfl⟩

theorem witness_OperandWriteStoresWholeWord : ∀ off ∈ [(0x10 : Offset), 0x14, 0x18, 0x1C], ∃ s : State, ∃ es, WriteNext s off 0xDEAD0000 es := by
  intro off h
  refine ⟨_, [], writeNext_at (idle []) off 0xDEAD0000 [] rfl ?_⟩
  revert off; decide

theorem witness_OperandReadsBackOnNextAccess : ∀ off ∈ [(0x10 : Offset), 0x14, 0x18, 0x1C], ∃ s t : State, ∃ es fs,
    WriteNext s off 0xDEAD0000 es ∧ step s = .next t ∧ ReadNext t off fs := by
  intro off h
  have a : off.toNat % 4 = 0 := by revert off; decide
  have w := writeNext_at (idle []) off 0xDEAD0000 [.access (memRead ex1 off)] rfl a
  refine ⟨_, _, _, [], w, writeNext_step w, ?_⟩
  have e : ∀ off ∈ [(0x10 : Offset), 0x14, 0x18, 0x1C], ∀ s : State,
      (State.writeOffset off 0xDEAD0000 s).schedule = s.schedule ∧ (State.writeOffset off 0xDEAD0000 s).tables = s.tables ∧
      (State.writeOffset off 0xDEAD0000 s).rst = s.rst := by
    intro off h s
    simp only [List.mem_cons, List.not_mem_nil, or_false] at h
    rcases h with rfl | rfl | rfl | rfl <;> exact ⟨rfl, rfl, rfl⟩
  have e := e off h
  exact ⟨memRead ex1 off, (e _).1, by simp only [answered_tables, (e _).2.1]; exact windowOffset_base ex1 off, rfl,
    (e _).2.2, rfl, a, rfl⟩

theorem witness_ReadOnlyOffsetsIgnoreWrites : ∀ off ∈ [(0x00 : Offset), 0x20, 0x24, 0x28, 0x2C, 0x30, 0x34, 0x38, 0x3C],
    ∃ s : State, ∃ es, WriteNext s off 0xFFFFFFFF es := by
  intro off h
  refine ⟨_, [], writeNext_at (idle []) off 0xFFFFFFFF [] rfl ?_⟩
  revert off; decide

theorem witness_ReservedOffsetsReadZeroIgnoreWrites : ∀ off ∈ [(0x30 : Offset), 0x34, 0x38, 0x3C],
    (∃ s : State, ∃ es, ReadNext s off es) ∧ ∃ s : State, ∃ es, WriteNext s off 0x12345678 es := by
  intro off h
  have a : off.toNat % 4 = 0 := by revert off; decide
  exact ⟨⟨_, [], readNext_at (idle []) off [] rfl a⟩, ⟨_, [], writeNext_at (idle []) off 0x12345678 [] rfl a⟩⟩

theorem witness_InfoReadsConstant : (∃ s : State, ∃ es, s.tables.premultiply = false ∧ ReadNext s 0x00 es) ∧
    (∃ s : State, ∃ es, WriteNext s 0x00 0xFFFFFFFF es) ∧ ∃ t : Tables, t ≠ ex1 ∧ t.premultiply = ex1.premultiply :=
  ⟨⟨_, [], rfl, readNext_at (idle []) 0x00 [] rfl rfl⟩, ⟨_, [], writeNext_at (idle []) 0x00 0xFFFFFFFF [] rfl rfl⟩, ex0, by decide, rfl⟩

theorem witness_StatusReadsItsFields : ∀ c ∈ [ErrCode.none, .illegalCommand, .outOfRange, .invalidLength, .invalidCharacter],
    ∃ s : State, ∃ es, s.errcode = c ∧ ReadNext s 0x0C es :=
  fun c _ => ⟨_, [], rfl, readNext_at { idle [] with errcode := c, err := true } 0x0C [] rfl rfl⟩

theorem witness_ReadReturnsRegisterOrFreeDraw : ∀ off ∈ [(0x08 : Offset), 0x10, 0x14, 0x18, 0x1C, 0x20, 0x24, 0x28, 0x2C],
    (∃ s : State, ∃ es, s.eng = .idle ∧ ReadNext s off es) ∧ ∃ s : State, ∃ es, s.eng = .busy ∧ ReadNext s off es := by
  intro off h
  have a : off.toNat % 4 = 0 := by revert off; decide
  exact ⟨⟨_, [], rfl, readNext_at (idle []) off [] rfl a⟩, ⟨_, [], rfl, readNext_at (busyWith 0x8 0 0 0 0) off [] rfl a⟩⟩

theorem witness_WritesAreIdempotentExceptCommand : Reg.status ≠ .cmd ∧ (idle []).ovr = false ∧ (idle []).eng = .idle := by decide

/-- Each clause: admitted, and not admitted for each of the four reasons. -/
theorem witness_AccessFaultsExactlyWhenNotAdmitted :
    (∀ off : Offset, windowOffset ex1 (memWrite ex1 off 7).addr = some off) ∧
    ((memWrite ex1 0x3C 7).size = 2#2 ∧ (0x3C : Offset).toNat % 4 = 0 ∧ (memWrite ex1 0x3C 7).be = 15#4 ∧ (idle []).rst = false) ∧
    { memWrite ex1 0x3C 7 with size := 1#2 }.size ≠ 2#2 ∧ (0x3F : Offset).toNat % 4 ≠ 0 ∧
    { memWrite ex1 0x3C 7 with be := 3#4 }.be ≠ 15#4 ∧ { memRead ex1 0x3C with be := 7#4 }.be ≠ 15#4 ∧ ({ idle [] with rst := true } : State).rst = true :=
  ⟨fun off => windowOffset_base ex1 off, by decide, by decide, by decide, by decide, by decide, rfl⟩

theorem witness_AccessOutsideWindowChangesNothing : 0x13F < 0x40 * (idle []).tables.baseBlock ∧ 0x40 * (idle []).tables.baseBlock + 0x40 ≤ 0x180 ∧
    (idle [.access { memRead ex1 0 with addr := 0x13F }]).schedule = .access { memRead ex1 0 with addr := 0x13F } :: [] := by decide

theorem witness_ResetHoldsSpecValues : idle [] = State.resetWith ex1 ∧ ex1.premultiply = false := ⟨rfl, rfl⟩

theorem witness_ResetAbandonsCommandAndClearsRegisters :
    ({ busyWith 0x8 0 0 0 0 with schedule := [.rstAssert, .engineTurn, .rstDeassert] } : State).schedule
      = .rstAssert :: .engineTurn :: .rstDeassert :: [] := rfl

/-- Both clauses, and each condition broken on its own. -/
theorem witness_IllFormedConfigurationIsRefused :
    (exA.symbols.length = 32 ∧ exA.symbols.Nodup ∧ 0x140 % 0x40 = 0) ∧ exA.symbols.tail.length ≠ 32 ∧
    ((0x5A :: exA.symbols.tail).length = 32 ∧ ¬ (0x5A :: exA.symbols.tail).Nodup) ∧ 0x160 % 0x40 ≠ 0 := by decide

theorem consistent_idle : Consistent (idle []) := by
  constructor <;> decide

theorem consistent_busy : Consistent (busyWith 0x69 0 0 0x49494949 0) := by
  constructor <;> decide

/-- A step that completes, one that accepts, and one that resets. -/
theorem witness_StepKeepsConsistent :
    (∃ s t : State, Consistent s ∧ s.eng = .busy ∧ step s = .next t) ∧
    (∃ s t : State, Consistent s ∧ s.schedule = [wr 0x08 1] ∧ step s = .next t) ∧
    ∃ s t : State, Consistent s ∧ s.schedule = [.rstAssert] ∧ step s = .next t :=
  ⟨⟨_, _, consistent_busy, rfl, rfl⟩, ⟨idle [wr 0x08 1], _, by constructor <;> decide, rfl, rfl⟩,
   ⟨idle [.rstAssert], _, by constructor <;> decide, rfl, rfl⟩⟩

theorem witness_NoStepWritesTheTables : ∃ t, step (idle [.rstAssert]) = .next t := ⟨_, rfl⟩

/-- A step for each row of the flag table: accepted, completed with an error, cleared by a write, dropped, reset. -/
theorem witness_FlagsChangeOnlyAsTheTableSays :
    (∃ t, step (idle [wr 0x08 1]) = .next t ∧ (idle [wr 0x08 1]).eng = .idle ∧ t.eng = .busy) ∧
    (∃ t, step (busyWith 0x59 0 0 0 0) = .next t ∧ (busyWith 0x59 0 0 0 0).done = false ∧ t.done = true ∧ t.err = true ∧ t.eng = .idle) ∧
    (∃ s t : State, Consistent s ∧ step s = .next t ∧ s.done = true ∧ t.done = false ∧ s.err = true ∧ t.err = false ∧ s.ovr = true ∧ t.ovr = false) ∧
    (∃ s t : State, step s = .next t ∧ s.ovr = false ∧ t.ovr = true) ∧
    ∃ s t : State, step s = .next t ∧ s.eng = .busy ∧ t.eng = .idle ∧ t.done = false :=
  ⟨⟨_, rfl, rfl, rfl⟩, ⟨_, rfl, rfl, rfl, rfl, rfl⟩,
   ⟨{ idle [wr 0x0C 0xE] with done := true, err := true, ovr := true, errcode := .outOfRange }, _,
     by constructor <;> decide, rfl, rfl, rfl, rfl, rfl, rfl, rfl⟩,
   ⟨{ busyWith 0x8 0 0 0 0 with schedule := [wr 0x08 4] }, _, rfl, rfl, rfl⟩,
   ⟨{ busyWith 0x8 0 0 0 0 with schedule := [.rstAssert] }, _, rfl, rfl, rfl, rfl⟩⟩

theorem witness_CommandsWriteOnlyResultsAndReport :
    (∃ t, exec (.permf 0) (busyWith 4 0 0 0 0) = .next t) ∧ ∃ t, exec (.dec 5) (busyWith 0x59 0 0 0 0) = .next t := ⟨⟨_, rfl⟩, ⟨_, rfl⟩⟩

/-- Two states that agree in the word, the latch and the tables only. -/
theorem witness_ResultsDependOnWordLatchAndTables : ∃ s u : State, s ≠ u ∧ s.cmd = u.cmd ∧ s.la0 = u.la0 ∧ s.la1 = u.la1 ∧
    s.lc0 = u.lc0 ∧ s.lc1 = u.lc1 ∧ s.tables = u.tables :=
  ⟨busyWith 0x8 1 0 0 0, { busyWith 0x8 1 0 0 0 with arg0 := 9, result := 7, draws := 3 }, by decide, rfl, rfl, rfl, rfl, rfl, rfl⟩

theorem witness_OperandWritesDoNotDisturbRunningCommand : Reg.chrIn1 ∈ [Reg.arg0, Reg.arg1, Reg.chrIn0, Reg.chrIn1] ∧
    Reg.arg0 ∈ [Reg.arg0, Reg.arg1, Reg.chrIn0, Reg.chrIn1] ∧ ∃ t, runCommand (busyWith 0x4 0 0 0 0) = .next t :=
  ⟨by decide, by decide, _, rfl⟩

theorem witness_RndfGivesForwardRound : (busyWith 2 0x22221111 0xABCD 0 0).la0 = (0x2222 : Half) ++ (0x1111 : Half) := by decide

theorem witness_RndiGivesInverseRound : (busyWith 3 0xFFFF0000 0xABCD 0 0).la0 = (0xFFFF : Half) ++ (0 : Half) := by decide

theorem witness_RndiUndoesRndf : ∃ t, exec (.rndf 0) (busyWith 2 0x22221111 0xABCD 0 0) = .next t ∧
    (busyWith 3 0x2C0C2222 0x5555ABCD 0 0).tables = (busyWith 2 0x22221111 0xABCD 0 0).tables ∧
    (busyWith 3 0x2C0C2222 0x5555ABCD 0 0).la0 = t.result ∧
    (busyWith 3 0x2C0C2222 0x5555ABCD 0 0).la1.extractLsb' 0 16 = (busyWith 2 0x22221111 0xABCD 0 0).la1.extractLsb' 0 16 :=
  ⟨_, rfl, rfl, by decide, by decide⟩

theorem witness_KeyHighByteOnlyXorsLowByte : BitVec.extractLsb' 0 8 (0xFF00 : Half) = BitVec.extractLsb' 0 8 (0 : Half) := by decide

/-- Section 2.3, the trace of `0x12345678`. -/
theorem witness_PermfGivesTwoForwardRounds : (busyWith 4 0x12345678 0 0 0).la0 = (0x1234 : Half) ++ (0x5678 : Half) ∧
    (0xEFDD : Half) = roundFn false 0x1234 ex1.key0 ^^^ 0x5678 ∧ (0xE8AD : Half) = roundFn false 0xEFDD ex1.key1 ^^^ 0x1234 := by decide

theorem witness_PermiGivesTwoInverseRounds : (busyWith 5 0xE8ADEFDD 0 0 0).la0 = (0xE8AD : Half) ++ (0xEFDD : Half) ∧
    (0x1234 : Half) = 0xE8AD ^^^ roundFn false 0xEFDD ex1.key1 ∧ (0x5678 : Half) = 0xEFDD ^^^ roundFn false 0x1234 ex1.key0 := by decide

theorem witness_WalksFromBelowNEnd : (0x3FFFFFFF : Word).toNat < 0x40000000 ∧ (0 : Word).toNat < 0x40000000 := by decide

/-- Both clauses at the boundary `N - 1`, `N`. -/
theorem witness_WalkfGivesFirstValueInRange : (busyWith 6 0x3FFFFFFF 0 0 0).la0.toNat < 0x40000000 ∧
    0x40000000 ≤ (busyWith 6 0x40000000 0 0 0).la0.toNat := by decide

theorem witness_WalkiGivesFirstValueInRange : (busyWith 7 0x3FFFFFFF 0 0 0).la0.toNat < 0x40000000 ∧
    0x40000000 ≤ (busyWith 7 0x40000000 0 0 0).la0.toNat := by decide

/-- Section 2.4, last row. -/
theorem witness_WalksInvertEachOther : (0x3FFFFFFF : Word).toNat < 0x40000000 ∧ walkF ex1 0x3FFFFFFF = some (0x0FB6F2D6, 1) ∧
    walkI ex1 0x3FFFFFFF = some (0x16F4FDCE, 1) ∧ WalkEnds (encode32 ex1) 0x3FFFFFFF 0x0FB6F2D6 1 :=
  ⟨by decide, by decide, by decide, ⟨by decide, by decide, by decide, fun j a b => by omega⟩⟩

theorem witness_WalkPermutesTheRange : (0x3FFFFFFF : Word).toNat < 0x40000000 ∧ walkF ex1 0x3FFFFFFF = some (0x0FB6F2D6, 1) := by decide

theorem witness_WalkFixesLoneValueOfCycle : (0x3FFFFFFF : Word).toNat < 0x40000000 := by decide

theorem witness_DigitsAreFiveBitFields : (0x3FFFFFFF : Word).toNat < 0x40000000 ∧
    ([31, 31, 31, 31, 31, 31] : List Digit).length = 6 ∧ ([0, 0, 0, 0, 0, 0] : List Digit).length = 6 := by decide

theorem witness_IndexInvertsAlphabet : indexOf exA 0x5A = some 31 ∧ indexOf exA 0x31 = some 0 ∧ indexOf exA 0x49 = none := by decide

theorem witness_EncGivesWalkAndSymbols : (busyWith 8 0x3FFFFFFF 0 0 0).la0.toNat < 0x40000000 ∧
    0x40000000 ≤ (busyWith 8 0x40000000 0 0 0).la0.toNat := by decide

/-- "F9FWCQ" is the digits 14, 8, 14, 28, 11, 22 (section 2.5). -/
theorem chars_F9FWCQ : charsAre (busyWith 0x69 0 0 0x57463946 0x5143) ![14, 8, 14, 28, 11, 22] := by
  unfold charsAre; decide

theorem witness_DecGivesInverseWalkOfValue : ∃ s ds, charsAre s ds := ⟨_, _, chars_F9FWCQ⟩

/-- Another length; a bad character at position 0 and at position 5 (section 2.6). -/
theorem witness_DecReportsLengthThenLowestCharacter : (15 : Nat) ≠ 6 ∧
    ((busyWith 0x69 0 0 0x57463966 0x5143).opChars[0]? = some 0x66 ∧ ∀ d, symbolOf exA d ≠ 0x66) ∧
    ((busyWith 0x69 0 0 0x31313131 0x3031).opChars[5]? = some 0x30 ∧ (∀ d, symbolOf exA d ≠ 0x30) ∧
      ∀ j < 5, ∃ d, (busyWith 0x69 0 0 0x31313131 0x3031).opChars[j]? = some (symbolOf exA d)) := by decide

/-- Both hypotheses on the second state, met by the words ENC gives (section 2.5). -/
theorem witness_DecOfEncGivesIdBack : (busyWith 8 0x3FFFFFFF 0 0 0).la0.toNat < 0x40000000 ∧
    ∃ t, exec (.enc 0) (busyWith 8 0x3FFFFFFF 0 0 0) = .next t ∧
      (busyWith 0x69 0 0 0x45575151 0x3856).tables = (busyWith 8 0x3FFFFFFF 0 0 0).tables ∧
      (busyWith 0x69 0 0 0x45575151 0x3856).lc0 = t.chrOut0 ∧ (busyWith 0x69 0 0 0x45575151 0x3856).lc1 = t.chrOut1 :=
  ⟨by decide, _, rfl, rfl, by decide, by decide⟩

theorem witness_EncOfDecGivesStringBack : charsAre (busyWith 0x69 0 0 0x57463946 0x5143) ![14, 8, 14, 28, 11, 22] ∧
    ∃ t, exec (.dec 6) (busyWith 0x69 0 0 0x57463946 0x5143) = .next t ∧
      (busyWith 8 0 0 0 0).tables = (busyWith 0x69 0 0 0x57463946 0x5143).tables ∧ (busyWith 8 0 0 0 0).la0 = t.result :=
  ⟨chars_F9FWCQ, _, rfl, rfl, by decide⟩

/-- A state with the host's program `p` and its turn next. -/
def hosted (p : List HostOp) : State := { idle [.hostTurn] with host := { HostAgent.none with prog := p } }

/-- Each clause: admitted while idle; a read while busy, of a result register and of another; and both forms while `rst` is asserted. -/
theorem witness_HostWritesAndReadsRegisters : ∀ op ∈ [HostOp.write .steps (.temp 7), .write .info (.imm 1), .read .steps 7, .read .status 0],
    (hosted [op]).rst = false ∧ (hosted [op]).host.halted = false ∧ (hosted [op]).schedule = .hostTurn :: [] ∧
    (hosted [op]).host.prog[(hosted [op]).host.pc]? = some op ∧ (hosted [op]).eng = .idle ∧
    ({ hosted [op] with eng := .busy } : State).eng = .busy ∧ Reg.steps ∈ [Reg.result, .chrOut0, .chrOut1, .steps] ∧
    Reg.status ∉ [Reg.result, .chrOut0, .chrOut1, .steps] ∧ ({ hosted [op] with rst := true } : State).rst = true := by decide

/-- Every form, its label there and not there, its temporary 0 and not 0; a halted program and one that has run out. -/
theorem witness_HostControlLeavesTheBlock :
    (∀ op ∈ [HostOp.bnz 0 1 5, .bz 7 1 5, .jump 5, .label 9, .xor 0 1 7, .waitIrq, .halt],
      (hosted [op, .label 5]).host.halted = false ∧ (hosted [op, .label 5]).schedule = .hostTurn :: [] ∧
      (hosted [op, .label 5]).host.prog[(hosted [op, .label 5]).host.pc]? = some op ∧
      labelTarget (hosted [op, .label 5]).host.prog 5 = some 1 ∧ labelTarget (hosted [op]).host.prog 5 = none ∧
      (hosted [op]).host.prog[(hosted [op]).host.pc]? = some op) ∧
    (hosted []).host.temps[(0 : Fin 8)] &&& 1 = 0 ∧
    (({ (hosted []).host with temps := Vector.replicate 8 1 } : HostAgent)).temps[(7 : Fin 8)] &&& 1 ≠ 0 ∧
    (hosted []).host.prog[(hosted []).host.pc]? = none ∧ ({ (hosted [.halt]).host with halted := true } : HostAgent).halted = true := by decide

theorem witness_BackToBackCommandsHaveBothOutcomes : (idle []).rst = false ∧ (idle []).eng = .idle ∧ (idle []).ovr = false ∧
    (idle [wr 0x08 8, wr 0x08 4, .engineTurn]).schedule
      = .access (memWrite (idle []).tables 0x08 8) :: .access (memWrite (idle []).tables 0x08 4) :: .engineTurn :: [] ∧
    (idle [wr 0x08 8, .engineTurn, wr 0x08 4, .engineTurn]).schedule
      = .access (memWrite (idle []).tables 0x08 8) :: .engineTurn :: .access (memWrite (idle []).tables 0x08 4) :: .engineTurn :: [] := by decide

end Sys2Proof.Tests
end

section
/-! SUPPORT. 00_scope: the parameters `L` and `N` (R7), and the configurations a block is built with (R6, R14, R115). -/

namespace Sys2Proof

/-- The tables that `State.build` gives the block, once `a` is known to be the configuration's alphabet (spec R6). -/
def RawConfig.tables (c : RawConfig) (a : Alphabet) : Tables :=
  { key0 := c.key0, key1 := c.key1, premultiply := c.premultiply, alphabet := a, baseBlock := c.base / 0x40 }

namespace Machine

/-- The top two bits of a word are its value divided by `2^30`. -/
theorem toNat_topBits (v : Word) : (v.extractLsb' 30 2).toNat = v.toNat / 2 ^ 30 := by
  have hv : v.toNat < 2 ^ 32 := v.isLt
  rw [BitVec.extractLsb'_toNat, Nat.shiftRight_eq_div_pow, Nat.mod_eq_of_lt (by omega)]

/-- Spec R7: `N` is `2^30`, so a word is below it exactly when the quotient by `2^30`, its top two bits, is 0. -/
theorem lt_N_iff_topBits_zero (v : Word) : v.toNat < Config.N ↔ v.extractLsb' 30 2 = 0 :=
  calc v.toNat < Config.N
    _ ↔ v.toNat / 2 ^ 30 = 0 := (Nat.div_eq_zero_iff_lt (Nat.two_pow_pos 30)).symm
    _ ↔ (v.extractLsb' 30 2).toNat = (0 : BitVec 2).toNat := by rw [toNat_topBits]; rfl
    _ ↔ v.extractLsb' 30 2 = 0 := BitVec.toNat_inj

/-- An alphabet of the wrong size, or with two equal entries, is refused (spec R6, R14). -/
theorem alphabetOfBytes_error {bs : List Byte} (h : ¬ (bs.length = 32 ∧ bs.Nodup)) :
    ∃ r, alphabetOfBytes bs = .error r := by
  unfold alphabetOfBytes
  by_cases hsize : bs.length = 32
  · have hdup : ¬ bs.Nodup := fun d => h ⟨hsize, d⟩
    exact ⟨.alphabetNotDistinct, by rw [dif_pos hsize, dif_neg hdup]⟩
  · exact ⟨.alphabetSize, dif_neg hsize⟩

/-- A base that is a multiple of 64 is kept exactly (spec R6, R48). -/
theorem baseOf_tables {c : RawConfig} (a : Alphabet) (h : c.base % 0x40 = 0) : baseOf (c.tables a) = c.base :=
  Nat.mul_div_cancel' (Nat.dvd_of_mod_eq_zero h)

/-- A configuration with a good alphabet and an aligned base builds the block after reset (spec R6, R115). -/
theorem build_next {c : RawConfig} {a : Alphabet} (ha : alphabetOfBytes c.alphabet = .ok a) (hb : c.base % 0x40 = 0) :
    State.build c = .next (State.resetWith (c.tables a)) := by
  simp [State.build, ha, hb, RawConfig.tables]

theorem build_alphabet_refused {c : RawConfig} {r : Refusal} (ha : alphabetOfBytes c.alphabet = .error r) :
    State.build c = .refused r := by
  simp [State.build, ha]

theorem build_base_refused {c : RawConfig} {a : Alphabet} (ha : alphabetOfBytes c.alphabet = .ok a) (hb : c.base % 0x40 ≠ 0) :
    State.build c = .refused .baseMisaligned := by
  simp [State.build, ha, hb]

end Machine

end Sys2Proof

namespace Sys2Proof.Proofs

open Sys2Proof Sys2Proof.Machine

/-- Settles O26: `State.build` asks for the alphabet first and then for the base, and each of the two tests refuses by name. -/
theorem illFormedConfigurationIsRefused : Obligations.IllFormedConfigurationIsRefused := by
  intro c
  constructor
  · rintro ⟨hsize, hdistinct, hbase⟩
    have ha := alphabetOfBytes_ok hsize hdistinct
    exact ⟨_, build_next ha hbase, rfl, rfl, rfl, rfl, rfl, baseOf_tables _ hbase⟩
  · intro hill
    by_cases halpha : c.alphabet.length = 32 ∧ c.alphabet.Nodup
    · obtain ⟨hsize, hdistinct⟩ := halpha
      have hbase : c.base % 0x40 ≠ 0 := fun hb => hill ⟨hsize, hdistinct, hb⟩
      exact ⟨_, build_base_refused (alphabetOfBytes_ok hsize hdistinct) hbase⟩
    · obtain ⟨r, hr⟩ := alphabetOfBytes_error halpha
      exact ⟨r, build_alphabet_refused hr⟩

/-- Settles O1: the numbers are closed facts, and the test of a value below `N` is one of its top two bits. -/
theorem lengthAndModulusFit : Obligations.LengthAndModulusFit :=
  ⟨rfl, rfl, by decide, by decide, by decide, lt_N_iff_topBits_zero⟩

end Sys2Proof.Proofs
end

section
/-! SUPPORT. 10_state: an admitted access to the window as an exact next state, what a completion can hold, and what one step can do to the block. -/

namespace Sys2Proof.Machine

/-! ### Admitted accesses -/

/-- A register's value does not depend on the events to come. -/
theorem regValue_schedule (s : State) (es : List Event) (r : Reg) : State.regValue { s with schedule := es } r = s.regValue r := by
  cases r <;> rfl

theorem busy_or_idle (s : State) : s.eng = .busy ∨ s.eng = .idle := by cases s.eng <;> simp

theorem busy_of_busy {s : State} (h : s.eng = .busy) : s.busy = true := decide_eq_true h

theorem busy_of_idle {s : State} (h : s.eng = .idle) : s.busy = false := by simp [State.busy, h]

/-- Spec R36: where a register's value is defined, a read gives it and changes nothing. -/
theorem readOffset_defined {s : State} {r : Reg} (hd : s.eng = .idle ∨ r.isResult = false) :
    s.readOffset r.offset = (s.regValue r, s) := by
  have hfree : (s.busy && r.isResult) = false := by
    rcases hd with hi | hr
    · rw [busy_of_idle hi, Bool.false_and]
    · rw [hr, Bool.and_false]
  simp [State.readOffset, hfree]

/-- Spec R36: a result register read while busy gives a free draw. -/
theorem readOffset_free {s : State} {r : Reg} (hb : s.eng = .busy) (hr : r.isResult = true) :
    s.readOffset r.offset = (Config.freeWord s.draws, s.drawn) := by
  simp [State.readOffset, busy_of_busy hb, hr]

/-- Spec R36, R47: an admitted read answers the register's value, unless it is a result register while busy. -/
theorem readNext_defined {s : State} {r : Reg} {es : List Event} (hd : s.eng = .idle ∨ r.isResult = false)
    (h : ReadNext s r.offset es) :
    step s = .next { s with reply := some (.data (s.regValue r)), schedule := es } := by
  rw [readNext_step h, readOffset_defined (s := { s with schedule := es }) hd, regValue_schedule]
  rfl

/-- Spec R36: an admitted read of a result register while busy answers a free draw. -/
theorem readNext_free {s : State} {r : Reg} {es : List Event} (hb : s.eng = .busy) (hr : r.isResult = true)
    (h : ReadNext s r.offset es) :
    step s = .next { s with
      reply := some (.data (Config.freeWord s.draws)), draws := s.draws + 1, schedule := es } := by
  rw [readNext_step h, readOffset_free (s := { s with schedule := es }) hb hr]
  rfl

/-- The four offsets whose reads are unspecified while busy (spec R36) are those of the result registers. -/
theorem isResult_of_offset_mem {off : Offset} (h : off ∈ [(0x20 : Offset), 0x24, 0x28, 0x2C]) :
    ∃ r : Reg, r.isResult = true ∧ off = r.offset := by
  rcases (by simpa using h : off = 0x20 ∨ off = 0x24 ∨ off = 0x28 ∨ off = 0x2C) with rfl | rfl | rfl | rfl
  · exact ⟨.result, rfl, rfl⟩
  · exact ⟨.chrOut0, rfl, rfl⟩
  · exact ⟨.chrOut1, rfl, rfl⟩
  · exact ⟨.steps, rfl, rfl⟩

/-- Spec R31: no register stands at a reserved offset. -/
theorem regAt_reserved : ∀ off ∈ [(0x30 : Offset), 0x34, 0x38, 0x3C], regAt off = none := by decide

/-- An admitted write at a register's offset is the register's write, answered. -/
theorem writeNext_reg {s : State} {r : Reg} {v : Word} {es : List Event} (h : WriteNext s r.offset v es) :
    step s = .next ((State.writeReg r v { s with schedule := es }).answered .done) := by
  rw [writeNext_step h, writeOffset_reg]

/-- Spec R31: a reserved offset reads as 0. -/
theorem readNext_reserved {s : State} {off : Offset} {es : List Event} (hoff : regAt off = none) (h : ReadNext s off es) :
    step s = .next { s with reply := some (.data 0), schedule := es } := by
  rw [readNext_step h]
  simp only [State.readOffset, hoff]
  rfl

/-- Spec R31: a reserved offset ignores a write. -/
theorem writeNext_reserved {s : State} {off : Offset} {v : Word} {es : List Event} (hoff : regAt off = none)
    (h : WriteNext s off v es) :
    step s = .next { s with reply := some .done, schedule := es } := by
  rw [writeNext_step h]
  simp only [State.writeOffset, hoff]
  rfl

theorem requestCommand_busy {s : State} (h : s.eng = .busy) (w : Word) : s.requestCommand w = s.overrun := by
  simp [State.requestCommand, h]

theorem requestCommand_idle {s : State} (h : s.eng = .idle) (w : Word) : s.requestCommand w = s.accept w := by
  simp [State.requestCommand, h]

/-! ### The words of `INFO`, `CTRL` and `STATUS` -/

theorem ctrlWord_eq (s : State) : s.ctrlWord = if s.ie then 1 else 0 := by
  unfold State.ctrlWord
  cases s.ie <;> rfl

/-- Spec R18: the fields of `INFO`; only `PREMUL` is open. -/
theorem infoWord_fields (t : Tables) :
    (infoWord t).extractLsb' 0 4 = 6 ∧ (infoWord t).extractLsb' 4 4 = 2 ∧ (infoWord t).extractLsb' 8 8 = 0x20 ∧
    (infoWord t).getLsbD 16 = t.premultiply ∧ (infoWord t).extractLsb' 17 7 = 0 ∧ (infoWord t).extractLsb' 24 8 = 0x01 := by
  unfold infoWord
  cases t.premultiply <;> decide

/-- Spec R18: `INFO` of a block built with `FNV_PREMULTIPLY = false`. -/
theorem infoWord_of_not_premultiply {t : Tables} (h : t.premultiply = false) : infoWord t = 0x01002026 := by
  unfold infoWord
  rw [h]
  rfl

/-- No register shows a key, the alphabet or the base (spec R18): `INFO` shows `PREMUL`, and the others no table at all. -/
theorem regValue_tables {s : State} {t : Tables} (h : t.premultiply = s.tables.premultiply) (r : Reg) :
    State.regValue { s with tables := t } r = s.regValue r := by
  cases r with
  | info => simp only [State.regValue, infoWord, h]
  | _ => rfl

/-- Spec R21: the four flags of `STATUS`. -/
theorem statusWord_flags (s : State) :
    s.statusWord.getLsbD 0 = s.busy ∧ s.statusWord.getLsbD 1 = s.done ∧ s.statusWord.getLsbD 2 = s.err ∧
    s.statusWord.getLsbD 3 = s.ovr := by
  simp only [State.statusWord, BitVec.getLsbD_append]
  simp

/-- Spec R21: `ERRCODE`, `ERRPOS` and the reserved fields of `STATUS`: each is found by dropping the fields below it. -/
theorem statusWord_report (s : State) :
    s.statusWord.extractLsb' 4 4 = 0 ∧ s.statusWord.extractLsb' 8 4 = s.errcode.bits ∧
    s.statusWord.extractLsb' 12 3 = s.errpos ∧ s.statusWord.extractLsb' 15 17 = 0 := by
  simp (disch := decide) only [State.statusWord, BitVec.extractLsb'_append_eq_of_le]
  exact ⟨BitVec.extractLsb'_append_eq_right, BitVec.extractLsb'_append_eq_right, BitVec.extractLsb'_append_eq_right, rfl⟩

theorem statusWord_resetWith (t : Tables) : (State.resetWith t).statusWord = 0 := by
  simp [State.statusWord, State.busy, State.resetWith, ErrCode.bits]

/-! ### What a completion can hold -/

/-- What R21 and R27 to R30 say of the registers a completion writes. -/
structure Completion.Sound (c : Completion) : Prop where
  posOnlyForChar : c.code ≠ .invalidCharacter → c.pos = 0
  posBound : c.pos.toNat ≤ 5
  errorZero : c.code ≠ .none → c.result = 0 ∧ c.chrOut0 = 0 ∧ c.chrOut1 = 0 ∧ c.steps = 0
  chrOut1High : c.chrOut1.extractLsb' 16 16 = 0
  stepsBound : c.steps.toNat ≤ 0xC0000001

theorem sound_ok {res co0 co1 n : Word} (hhigh : co1.extractLsb' 16 16 = 0) (hn : n.toNat ≤ 0xC0000001) :
    (Completion.ok res co0 co1 n).Sound where
  posOnlyForChar _ := rfl
  posBound := Nat.zero_le 5
  errorZero h := absurd rfl h
  chrOut1High := hhigh
  stepsBound := hn

theorem sound_err {code : ErrCode} {pos : BitVec 3} (hchar : code ≠ .invalidCharacter → pos = 0) (hpos : pos.toNat ≤ 5) :
    (Completion.err code pos).Sound where
  posOnlyForChar := hchar
  posBound := hpos
  errorZero _ := ⟨rfl, rfl, rfl, rfl⟩
  chrOut1High := BitVec.extractLsb'_zero
  stepsBound := Nat.zero_le _

/-- Every error but an invalid character comes with position 0 (spec R96). -/
theorem sound_err_zero (code : ErrCode) : (Completion.err code 0).Sound := sound_err (fun _ => rfl) (Nat.zero_le 5)

/-- Spec R29: `CHR_OUT1` of a string has its high half 0. -/
theorem chrOut1Of_high (c : List Byte) : (chrOut1Of c).extractLsb' 16 16 = 0 := by
  simp (disch := decide) only [chrOut1Of, packBytes, BitVec.extractLsb'_append_eq_of_le]
  decide

/-- Spec R30, R82: a walk that has a value took no more steps than its fuel. -/
theorem walk_steps_le {f : Word → Word} {v w : Word} {n : Nat} (h : walk f Config.walkFuel v 0 = some (w, n)) :
    (BitVec.ofNat 32 n).toNat ≤ 0xC0000001 := by
  obtain ⟨k, rfl, hk, _⟩ := walk_spec h
  rw [BitVec.toNat_ofNat, Nat.zero_add]
  exact (Nat.mod_le _ _).trans hk

theorem walkCompletion_sound {f : Word → Word} {v : Word} {c : Completion}
    (h : walkCompletion (walk f Config.walkFuel v 0) = some c) : c.Sound := by
  obtain ⟨⟨w, n⟩, hw, rfl⟩ := Option.map_eq_some_iff.1 h
  exact sound_ok (by decide) (walk_steps_le hw)

/-- Spec R90: the position DEC reports is one of those it scanned. -/
theorem scanChars_error_lt {a : Alphabet} {cs : List Byte} {i j : Nat} (h : scanChars a i cs = .error j) :
    j < i + cs.length := by
  induction cs generalizing i with
  | nil => exact absurd h (by simp [scanChars])
  | cons c cs ih =>
    rw [List.length_cons]
    simp only [scanChars] at h
    split at h
    · obtain rfl := Except.error.inj h
      omega
    · split at h
      · exact absurd h (by simp)
      · rename_i k hk
        obtain rfl := Except.error.inj h
        have := ih hk
        omega

/-- DEC checks the length, then the characters, then walks (spec R90). -/
theorem decCompletion_sound {len : Nat} {s : State} {c : Completion} (h : decCompletion len s = some c) : c.Sound := by
  unfold decCompletion at h
  split at h
  · obtain rfl := Option.some.inj h
    exact sound_err_zero _
  · split at h
    · rename_i i hi
      obtain rfl := Option.some.inj h
      have hlt : i < 0 + 6 := scanChars_error_lt hi
      refine sound_err (fun hne => absurd rfl hne) ?_
      rw [BitVec.toNat_ofNat]
      omega
    · exact walkCompletion_sound h

/-- A command that walks checks its operand first (spec R80, R81, R89). -/
theorem sound_of_range_check {b : Bool} {o : Option Completion} {c : Completion}
    (h : (if b then o else some (.err .outOfRange 0)) = some c) (ho : o = some c → c.Sound) : c.Sound := by
  cases b with
  | true => exact ho h
  | false =>
    obtain rfl := Option.some.inj h
    exact sound_err_zero _

theorem completionOf_sound {i : Instr} {s : State} {c : Completion} (h : completionOf i s = some c) : c.Sound := by
  cases i with
  | rfn | rndf | rndi | permf | permi =>
    obtain rfl := Option.some.inj h
    exact sound_ok (by decide) (by decide)
  | walkf | walki => exact sound_of_range_check h walkCompletion_sound
  | enc =>
    refine sound_of_range_check h fun hc => ?_
    obtain ⟨⟨w, n⟩, hw, rfl⟩ := Option.map_eq_some_iff.1 hc
    exact sound_ok (chrOut1Of_high _) (walk_steps_le hw)
  | dec => exact decCompletion_sound h

/-- The completion step's `Exec` of a word that decodes is its command's meaning (spec R61). -/
theorem runCommand_of_decode {s : State} {i : Instr} (h : decode s.cmd = .ok i) : runCommand s = exec i s := by
  simp only [runCommand, h]

/-- The running command, legal or not, is one completion step, with a sound completion. -/
theorem runCommand_sound (s : State) : ∃ c, runCommand s = .next (s.finish c) ∧ ∀ d, c = some d → d.Sound := by
  cases hd : decode s.cmd with
  | ok i => exact ⟨_, (runCommand_of_decode hd).trans (exec_eq_finish i s), fun _ => completionOf_sound⟩
  | error e =>
    refine ⟨some (.err .illegalCommand 0), by simp only [runCommand, hd]; rfl, ?_⟩
    rintro _ ⟨⟩
    exact sound_err_zero _

/-- Everything the engine's turn can do, with what the completion can hold. -/
theorem engineTurn_sound {s t : State} (h : engineTurn s = .next t) :
    t = s ∨ (s.eng = .busy ∧ s.rst = false ∧ ∃ c, c.Sound ∧ t = s.complete c) := by
  cases hb : s.eng with
  | idle =>
    rw [engineTurn_idle hb] at h
    exact .inl (Host.Outcome.next.inj h).symm
  | busy =>
    cases hr : s.rst with
    | true => exact .inl (by simpa [engineTurn, hr] using h.symm)
    | false =>
      obtain ⟨c, hc, hsound⟩ := runCommand_sound s
      rw [engineTurn_busy hr hb, hc] at h
      obtain rfl := Host.Outcome.next.inj h
      rcases finish_cases c s with e | ⟨d, rfl, e⟩
      · exact .inl e
      · exact .inr ⟨rfl, rfl, d, hsound d rfl, e⟩

/-! ### What one step can do to the block -/

/-- The block by itself: the ports, the host agent, the schedule and the count of draws are blanked. -/
def State.block (s : State) : State := { s with reply := none, host := HostAgent.none, schedule := [], draws := 0 }

@[simp] theorem block_withHost (g : HostAgent) (s : State) : (s.withHost g).block = s.block := rfl

@[simp] theorem block_hostRead (r : Reg) (d : Fin 8) (s : State) : (hostRead r d s).block = s.block := by
  rcases hostRead_cases r d s with e | ⟨g, e⟩ <;> rw [e]
  exact block_withHost g s

/-- A register write does the same to the block whatever the events to come. -/
theorem block_writeReg_schedule (r : Reg) (v : Word) (s : State) (es : List Event) :
    (State.writeReg r v { s with schedule := es }).block = (s.writeReg r v).block := by
  cases r with
  | cmd =>
    show (State.requestCommand v { s with schedule := es }).block = (s.requestCommand v).block
    rcases busy_or_idle s with h | h
    · rw [requestCommand_busy h, requestCommand_busy (s := { s with schedule := es }) h]; rfl
    · rw [requestCommand_idle h, requestCommand_idle (s := { s with schedule := es }) h]; rfl
  | _ => rfl

/-- What the next step can do to the block of `s`, with what causes it (spec R37). `step_change` says that this is all. -/
inductive Change (s : State) : State → Prop
  /-- A read, an operation of the host alone, an ignored write, an access outside the window, or a turn with nothing to do. -/
  | unchanged : Change s s
  /-- The engine's completion step (spec R35). -/
  | completed (c : Completion) : completesNext s → c.Sound → Change s (s.complete c)
  /-- A command write while idle (spec R34). -/
  | accepted (w : Word) : nextWrite s = some (.cmd, w) → s.eng = .idle → s.rst = false → Change s (s.accept w)
  /-- A command write while busy (spec R34). -/
  | dropped (w : Word) : nextWrite s = some (.cmd, w) → s.eng = .busy → Change s s.overrun
  /-- A write to `STATUS` (spec R22). -/
  | cleared (w : Word) : nextWrite s = some (.status, w) → Change s (s.clearStatus w)
  /-- A write to `CTRL` or to an operand register: no flag of `STATUS` is among these fields. -/
  | stored (ie : Bool) (a0 a1 c0 c1 : Word) :
      Change s { s with ie := ie, arg0 := a0, arg1 := a1, chrIn0 := c0, chrIn1 := c1 }
  /-- `rst` is asserted (spec 70_reset R111, R112). -/
  | reset : resetsNext s → Change s s.assertReset
  /-- `rst` is deasserted (spec 70_reset R110). -/
  | released : Change s s.deassertReset

/-- A register write that the next step makes is one of the changes. -/
theorem Change.of_write {s : State} {r : Reg} {v : Word} (hw : nextWrite s = some (r, v)) (hr : s.rst = false) :
    Change s (s.writeReg r v) := by
  rcases writeReg_cases r v s with e | ⟨-, e⟩ | ⟨rfl, hb, e⟩ | ⟨rfl, hi, e⟩ | ⟨rfl, e⟩ | ⟨-, e⟩ | ⟨-, e⟩ | ⟨-, e⟩ | ⟨-, e⟩ <;>
    rw [e]
  · exact .unchanged
  · exact .stored _ s.arg0 s.arg1 s.chrIn0 s.chrIn1
  · exact .dropped v hw hb
  · exact .accepted v hw hi hr
  · exact .cleared v hw
  · exact .stored s.ie _ s.arg1 s.chrIn0 s.chrIn1
  · exact .stored s.ie s.arg0 _ s.chrIn0 s.chrIn1
  · exact .stored s.ie s.arg0 s.arg1 _ s.chrIn1
  · exact .stored s.ie s.arg0 s.arg1 s.chrIn0 _

/-- `t` has the block that one of the changes gives. -/
def ChangesTo (s t : State) : Prop := ∃ u, Change s u ∧ t.block = u.block

theorem ChangesTo.of_same_block {s t : State} (h : t.block = s.block) : ChangesTo s t := ⟨s, .unchanged, h⟩

/-- A write by another master is the write that `nextWrite` names, or none at a reserved offset. -/
theorem nextWrite_access {s : State} {a : Access} {off : Offset} (he : (nextEvent s).1 = .access a)
    (hoff : windowOffset s.tables a.addr = some off) (ad : Admitted s off a) (hw : a.write = true) :
    nextWrite s = (regAt off).map fun r => (r, a.wdata) := by
  simp [nextWrite, he, hoff, hw, (busProblem_eq_none_iff s off a).2 ad]

/-- A write by the host's program is the write that `nextWrite` names. -/
theorem nextWrite_host {s : State} {r : Reg} {src : Src} (he : (nextEvent s).1 = .hostTurn)
    (hrun : s.host.halted = false) (hrst : s.rst = false) (hop : s.host.prog[s.host.pc]? = some (.write r src)) :
    nextWrite s = some (r, s.host.source src) := by
  simp [nextWrite, he, hrun, hrst, hop]

/-- A read that is answered leaves the block alone (spec R47). -/
theorem block_of_read {s t : State} {a : Access} (hw : a.write = false) (h : busAccess a s = .next t) : t.block = s.block := by
  rcases busAccess_next h with rfl | ⟨_, _, _, hw', _⟩ | ⟨_, _, _, _, rfl | rfl⟩
  · rfl
  · exact absurd (hw.symm.trans hw') (by decide)
  · rfl
  · rfl

/-- The host's write reaches its register, and only with `rst` deasserted. -/
theorem busAccess_memWrite_next {s t : State} {r : Reg} {v : Word} (h : busAccess (memWrite s.tables r.offset v) s = .next t) :
    s.rst = false ∧ t = (s.writeReg r v).answered .done := by
  cases hr : s.rst with
  | false =>
    rw [busAccess_memWrite r v hr] at h
    exact ⟨rfl, (Host.Outcome.next.inj h).symm⟩
  | true =>
    have hp : s.busProblem r.offset (memWrite s.tables r.offset v) = some .inReset := by simp [State.busProblem, hr]
    rw [busAccess_problem (windowOffset_base _ _) hp] at h
    exact absurd h (by simp)

theorem access_changesTo {s t : State} {es : List Event} {a : Access} (he : (nextEvent s).1 = .access a)
    (h : busAccess a { s with schedule := es } = .next t) : ChangesTo s t := by
  rcases busAccess_next h with rfl | ⟨off, hoff, ad, hw, rfl⟩ | ⟨_, _, _, hw, _⟩
  · exact .of_same_block rfl
  · have hnext := nextWrite_access he hoff ad hw
    rcases writeOffset_cases off a.wdata { s with schedule := es } with ⟨_, e⟩ | ⟨r, hr, e⟩ <;> rw [e]
    · exact .of_same_block rfl
    · rw [hr] at hnext
      exact ⟨_, .of_write hnext ad.1, block_writeReg_schedule r a.wdata s es⟩
  · exact .of_same_block ((block_of_read hw h).trans rfl)

theorem hostTurn_changesTo {s t : State} {es : List Event} (he : (nextEvent s).1 = .hostTurn)
    (h : hostTurn { s with schedule := es } = .next t) : ChangesTo s t := by
  unfold hostTurn at h
  split at h
  · obtain rfl := Host.Outcome.next.inj h
    exact .of_same_block rfl
  · rename_i hrun
    split at h
    · obtain rfl := Host.Outcome.next.inj h
      exact .of_same_block rfl
    · rename_i op hop
      rcases hostOp_next h with rfl | ⟨g, rfl⟩ | ⟨r, src, u, rfl, hb, rfl⟩ | ⟨r, d, u, _, hb, rfl⟩
      · exact .of_same_block rfl
      · exact .of_same_block rfl
      · obtain ⟨hrst, rfl⟩ := busAccess_memWrite_next hb
        have hnext := nextWrite_host he (Bool.eq_false_of_not_eq_true hrun) hrst hop
        exact ⟨_, .of_write hnext hrst, block_writeReg_schedule r _ s es⟩
      · exact .of_same_block ((block_hostRead r d u).trans ((block_of_read rfl hb).trans rfl))

theorem engineTurn_changesTo {s t : State} {es : List Event} (he : (nextEvent s).1 = .engineTurn)
    (h : engineTurn { s with schedule := es } = .next t) : ChangesTo s t := by
  rcases engineTurn_sound h with rfl | ⟨hb, hr, c, hc, rfl⟩
  · exact .of_same_block rfl
  · exact ⟨_, .completed c ⟨he, hb, hr⟩ hc, rfl⟩

/-- The next event sees the state, its schedule apart. -/
theorem nextEvent_state (s : State) : ∃ es, (nextEvent s).2 = { s with schedule := es } := by
  cases h : s.schedule with
  | nil => exact ⟨s.schedule, by rw [nextEvent_nil h]⟩
  | cons e es => exact ⟨es, by rw [nextEvent_cons h]⟩

/-- Everything a step can do to the block. -/
theorem step_change {s t : State} (h : step s = .next t) : ChangesTo s t := by
  obtain ⟨es, hs⟩ := nextEvent_state s
  unfold step at h
  rw [hs] at h
  cases he : (nextEvent s).1 with
  | hostTurn => rw [he] at h; exact hostTurn_changesTo he h
  | engineTurn => rw [he] at h; exact engineTurn_changesTo he h
  | access a => rw [he] at h; exact access_changesTo he h
  | rstAssert =>
    rw [he] at h
    obtain rfl := Host.Outcome.next.inj h
    exact ⟨_, .reset he, rfl⟩
  | rstDeassert =>
    rw [he] at h
    obtain rfl := Host.Outcome.next.inj h
    exact ⟨_, .released, rfl⟩

/-! ### The invariant -/

/-- A completion of a sound value leaves a consistent state, whatever stood before. -/
theorem consistent_complete {c : Completion} (hc : c.Sound) (s : State) : Consistent (s.complete c) where
  busyFlags h := absurd h (by simp)
  busyReport h := absurd h (by simp)
  errHasCode := of_decide_eq_true
  posOnlyForChar := hc.posOnlyForChar
  posBound := hc.posBound
  resetIdle _ := rfl
  errorZero _ := hc.errorZero
  chrOut1High _ := hc.chrOut1High
  stepsBound _ := hc.stepsBound

/-- An accepted command leaves a consistent state (spec R34): busy, the report clear, `rst` deasserted. -/
theorem consistent_accept {s : State} (w : Word) (hr : s.rst = false) : Consistent (s.accept w) where
  busyFlags _ := ⟨rfl, rfl⟩
  busyReport _ := ⟨rfl, rfl⟩
  errHasCode h := absurd h (by simp)
  posOnlyForChar _ := rfl
  posBound := Nat.zero_le 5
  resetIdle h := absurd (hr.symm.trans h) (by decide)
  errorZero h := absurd h (by simp)
  chrOut1High h := absurd h (by simp)
  stepsBound h := absurd h (by simp)

/-- The state after reset is consistent (spec R39). -/
theorem consistent_resetWith (t : Tables) : Consistent (State.resetWith t) where
  busyFlags _ := ⟨rfl, rfl⟩
  busyReport _ := ⟨rfl, rfl⟩
  errHasCode h := absurd h (by simp [State.resetWith])
  posOnlyForChar _ := rfl
  posBound := Nat.zero_le 5
  resetIdle _ := rfl
  errorZero _ _ := ⟨rfl, rfl, rfl, rfl⟩
  chrOut1High _ := BitVec.extractLsb'_zero
  stepsBound _ := Nat.zero_le _

/-- A reset at run time leaves the registers of `State.resetWith`, and the engine idle while `rst` is asserted. -/
theorem consistent_assertReset (s : State) : Consistent s.assertReset :=
  { consistent_resetWith s.tables with resetIdle := fun _ => rfl }

/-- Clearing `DONE` and `ERR` clears no code and starts no command. -/
theorem Consistent.clearStatus {s : State} (h : Consistent s) (w : Word) : Consistent (s.clearStatus w) :=
  { h with
    busyFlags := fun hb => by simp [h.busyFlags hb]
    errHasCode := fun he => h.errHasCode (Bool.and_eq_true_iff.1 he).1 }

/-- Consistency is about the block alone. -/
theorem Consistent.of_block {s t : State} (h : Consistent s) (e : t.block = s.block) : Consistent t := by
  have hblock : Consistent s.block := { h with }
  rw [← e] at hblock
  exact { hblock with }

/-- Every change of the block keeps the invariant. -/
theorem Change.consistent {s u : State} (h : Change s u) (hs : Consistent s) : Consistent u := by
  cases h with
  | unchanged => exact hs
  | completed c _ hc => exact consistent_complete hc s
  | accepted w _ _ hr => exact consistent_accept w hr
  | dropped | stored => exact { hs with }
  | cleared w => exact hs.clearStatus w
  | reset => exact consistent_assertReset s
  | released => exact { hs with resetIdle := fun h => absurd h (by simp) }

theorem Change.tables_eq {s u : State} (h : Change s u) : u.tables = s.tables := by
  cases h <;> rfl

/-! ### The flag table (spec R37)

In each lemma the changes that the table allows are named; in the others the flag does not move that way. -/

theorem Change.busy_set {s u : State} (h : Change s u) (hs : s.eng = .idle) (hu : u.eng = .busy) :
    ∃ w, nextWrite s = some (.cmd, w) := by
  cases h with
  | accepted w hw => exact ⟨w, hw⟩
  | _ => simp_all

theorem Change.busy_cleared {s u : State} (h : Change s u) (hs : s.eng = .busy) (hu : u.eng = .idle) :
    completesNext s ∨ resetsNext s := by
  cases h with
  | completed c hc => exact .inl hc
  | reset hr => exact .inr hr
  | _ => simp_all

theorem Change.done_set {s u : State} (h : Change s u) (hs : s.done = false) (hu : u.done = true) : completesNext s := by
  cases h with
  | completed c hc => exact hc
  | _ => simp_all

theorem Change.done_cleared {s u : State} (h : Change s u) (hs : s.done = true) (hu : u.done = false) :
    (∃ w, nextWrite s = some (.status, w) ∧ w.getLsbD 1 = true) ∨
    (∃ w, nextWrite s = some (.cmd, w) ∧ s.eng = .idle) ∨ resetsNext s := by
  cases h with
  | cleared w hw => exact .inl ⟨w, hw, by simpa [hs] using hu⟩
  | accepted w hw hi => exact .inr (.inl ⟨w, hw, hi⟩)
  | reset hr => exact .inr (.inr hr)
  | _ => simp_all

theorem Change.err_set {s u : State} (h : Change s u) (hs : s.err = false) (hu : u.err = true) :
    completesNext s ∧ u.errcode ≠ .none := by
  cases h with
  | completed c hc => exact ⟨hc, of_decide_eq_true hu⟩
  | _ => simp_all

/-- A completion cannot clear `ERR` in a consistent state, where `BUSY = 1` implies `ERR = 0` (spec R21). -/
theorem Change.err_cleared {s u : State} (h : Change s u) (hcons : Consistent s) (hs : s.err = true) (hu : u.err = false) :
    (∃ w, nextWrite s = some (.status, w) ∧ w.getLsbD 2 = true) ∨
    (∃ w, nextWrite s = some (.cmd, w) ∧ s.eng = .idle) ∨ resetsNext s := by
  cases h with
  | cleared w hw => exact .inl ⟨w, hw, by simpa [hs] using hu⟩
  | accepted w hw hi => exact .inr (.inl ⟨w, hw, hi⟩)
  | reset hr => exact .inr (.inr hr)
  | completed c hc =>
    obtain ⟨_, hbusy, _⟩ := hc
    exact absurd (hs.symm.trans (hcons.busyFlags hbusy).2) (by decide)
  | _ => simp_all

theorem Change.ovr_set {s u : State} (h : Change s u) (hs : s.ovr = false) (hu : u.ovr = true) :
    ∃ w, nextWrite s = some (.cmd, w) ∧ s.eng = .busy := by
  cases h with
  | dropped w hw hb => exact ⟨w, hw, hb⟩
  | _ => simp_all

theorem Change.ovr_cleared {s u : State} (h : Change s u) (hs : s.ovr = true) (hu : u.ovr = false) :
    (∃ w, nextWrite s = some (.status, w) ∧ w.getLsbD 3 = true) ∨ resetsNext s := by
  cases h with
  | cleared w hw => exact .inl ⟨w, hw, by simpa [hs] using hu⟩
  | reset hr => exact .inr hr
  | _ => simp_all

end Sys2Proof.Machine

namespace Sys2Proof.Proofs

open Sys2Proof Sys2Proof.Machine

/-- Settles O28: each of the changes a step can make to the block keeps the invariant, and the invariant is about the block alone. -/
theorem stepKeepsConsistent : Obligations.StepKeepsConsistent := by
  intro s t hs h
  obtain ⟨u, hu, e⟩ := step_change h
  exact (hu.consistent hs).of_block e

/-- Settles O30: the flag table, row by row, for the changes a step can make to the block. -/
theorem flagsChangeOnlyAsTheTableSays : Obligations.FlagsChangeOnlyAsTheTableSays := by
  intro s t h
  obtain ⟨u, hu, e⟩ := step_change h
  have heng : t.eng = u.eng := (congrArg State.eng e :)
  have hdone : t.done = u.done := (congrArg State.done e :)
  have herr : t.err = u.err := (congrArg State.err e :)
  have hcode : t.errcode = u.errcode := (congrArg State.errcode e :)
  have hovr : t.ovr = u.ovr := (congrArg State.ovr e :)
  rw [heng, hdone, herr, hcode, hovr]
  exact ⟨hu.busy_set, hu.busy_cleared, hu.done_set, hu.done_cleared, hu.err_set, hu.err_cleared, hu.ovr_set, hu.ovr_cleared⟩

/-- Settles O10: the model's `requestCommand` chooses by the engine, and only the `accept` branch draws values. -/
theorem commandWriteIsAcceptedOrDropped : Obligations.CommandWriteIsAcceptedOrDropped := by
  intro s w es h
  have hstep : step s = .next ((State.requestCommand w { s with schedule := es }).answered .done) := writeNext_reg (r := .cmd) h
  constructor
  · intro hb
    rw [hstep, requestCommand_busy (s := { s with schedule := es }) hb]
    rfl
  · intro hi
    rw [hstep, requestCommand_idle (s := { s with schedule := es }) hi]
    exact ⟨_, _, _, _, _, rfl⟩

/-- Settles O17: the fields of `infoWord`, the register write that does nothing, and the registers' values under other tables. -/
theorem infoReadsConstant : Obligations.InfoReadsConstant := by
  refine ⟨fun s v es => ⟨fun h => ?_, fun h => writeNext_reg (r := .info) h⟩, fun s t r h => regValue_tables h r⟩
  obtain ⟨hlen, hrounds, hradix, hpremul, hzero, hversion⟩ := infoWord_fields s.tables
  exact ⟨infoWord s.tables, readNext_defined (r := .info) (.inr rfl) h, hlen, hrounds, hradix, hpremul, hzero, hversion,
    infoWord_of_not_premultiply⟩

/-- Settles O18, by the fields of `statusWord`. -/
theorem statusReadsItsFields : Obligations.StatusReadsItsFields := by
  intro s es h
  obtain ⟨hbusy, hdone, herr, hovr⟩ := statusWord_flags s
  obtain ⟨hlow, hcode, hpos, hhigh⟩ := statusWord_report s
  refine ⟨s.statusWord, readNext_defined (r := .status) (.inr rfl) h, hbusy, hdone, herr, hovr, hlow, hpos, hhigh, ?_⟩
  rw [hcode]
  cases s.errcode <;> rfl

/-- Settles O19: each clause is one register of `readNext_defined` or `readNext_free`. -/
theorem readReturnsRegisterOrFreeDraw : Obligations.ReadReturnsRegisterOrFreeDraw := by
  intro s es
  refine ⟨readNext_defined (r := .cmd) (.inr rfl), readNext_defined (r := .arg0) (.inr rfl),
    readNext_defined (r := .arg1) (.inr rfl), readNext_defined (r := .chrIn0) (.inr rfl),
    readNext_defined (r := .chrIn1) (.inr rfl), fun hi => ?_, fun hb off hoff h => ?_⟩
  · exact ⟨readNext_defined (r := .result) (.inl hi), readNext_defined (r := .chrOut0) (.inl hi),
      readNext_defined (r := .chrOut1) (.inl hi), readNext_defined (r := .steps) (.inl hi)⟩
  · obtain ⟨r, hr, rfl⟩ := isResult_of_offset_mem hoff
    exact readNext_free hb hr h

/-- Settles O29: no change of the block writes the tables. -/
theorem noStepWritesTheTables : Obligations.NoStepWritesTheTables := by
  intro s t h
  obtain ⟨u, hu, e⟩ := step_change h
  have htables : t.tables = u.tables := (congrArg State.tables e :)
  exact htables.trans hu.tables_eq

/-- Settles O31: every command is one completion step, or none. -/
theorem commandsWriteOnlyResultsAndReport : Obligations.CommandsWriteOnlyResultsAndReport := by
  intro i s t h
  rw [exec_eq_finish] at h
  obtain rfl := Host.Outcome.next.inj h
  rcases finish_cases (completionOf i s) s with e | ⟨c, _, e⟩ <;> rw [e]
  rfl

/-- Settles O6: the turn, on the schedule or at its end, is the busy engine's, which runs what `CMD` decodes to. -/
theorem stepRunsDecodedCommand : Obligations.StepRunsDecodedCommand := by
  intro s i hr hb hd
  constructor
  · intro es hes
    rw [step_cons hes]
    exact (engineTurn_busy (s := { s with schedule := es }) hr hb).trans (runCommand_of_decode hd)
  · intro hnil
    rw [step_nil hnil, engineTurn_busy hr hb, runCommand_of_decode hd]

/-- Settles O8: the turn is the engine's, and an idle engine leaves the state as it finds it. -/
theorem idleEngineHasNoStep : Obligations.IdleEngineHasNoStep := by
  intro s es hi hes
  rw [step_cons hes]
  exact engineTurn_idle (s := { s with schedule := es }) hi

/-- Settles O11: `clearStatus` keeps a flag and the complement of its bit, which is the choice the statement writes. -/
theorem statusWriteClearsWrittenOnes : Obligations.StatusWriteClearsWrittenOnes := by
  intro s w es h
  rw [writeNext_reg (r := .status) h]
  simp [State.writeReg, State.clearStatus, State.answered, Bool.and_comm]

/-- Settles O12: the write is `writeReg`'s, and `ctrlWord` is `IE` with 31 zeros above. -/
theorem controlWriteSetsInterruptEnable : Obligations.ControlWriteSetsInterruptEnable := by
  intro s w es
  refine ⟨fun h => writeNext_reg (r := .ctrl) h, fun h => ?_⟩
  rw [← ctrlWord_eq]
  exact readNext_defined (r := .ctrl) (.inr rfl) h

/-- Settles O13: each clause is one register of `writeNext_reg`. -/
theorem operandWriteStoresWholeWord : Obligations.OperandWriteStoresWholeWord :=
  fun _ _ _ => ⟨writeNext_reg (r := .arg0), writeNext_reg (r := .arg1), writeNext_reg (r := .chrIn0), writeNext_reg (r := .chrIn1)⟩

/-- Settles O16: no register stands at a reserved offset. -/
theorem reservedOffsetsReadZeroIgnoreWrites : Obligations.ReservedOffsetsReadZeroIgnoreWrites := by
  intro s v off es hoff
  have hnone : regAt off = none := regAt_reserved off hoff
  exact ⟨readNext_reserved hnone, writeNext_reserved hnone⟩

/-- Settles O24: `State.resetWith` writes these values, and `INFO` is a function of the tables. -/
theorem resetHoldsSpecValues : Obligations.ResetHoldsSpecValues := by
  rintro t s rfl
  exact ⟨rfl, infoWord_of_not_premultiply, ctrlWord_eq _, rfl, statusWord_resetWith t,
    rfl, rfl, rfl, rfl, rfl, rfl, rfl, rfl, rfl, rfl⟩

/-- Settles O27: the registers of `State.resetWith` meet the invariant for every configuration. -/
theorem resetIsConsistent : Obligations.ResetIsConsistent := consistent_resetWith

end Sys2Proof.Proofs
end

section
/-! SUPPORT. 20_memory: which writes are ignored (R42), which are idempotent (R47), and which accesses are answered (R41, R42, R44). -/

namespace Sys2Proof.Machine

/-! ### Ignored and repeated writes -/

/-- Spec R18, R27 to R30: `INFO` and the result registers ignore a write. -/
theorem writeReg_readOnly {r : Reg} (h : r = .info ∨ r.isResult = true) (v : Word) (s : State) : s.writeReg r v = s := by
  rcases h with rfl | h
  · rfl
  · cases r with
    | result | chrOut0 | chrOut1 | steps => rfl
    | _ => exact absurd h (by decide)

/-- Spec R42: the offsets that ignore a write hold `INFO`, a result register, or no register. -/
theorem readOnly_of_offset_mem :
    ∀ off ∈ [(0x00 : Offset), 0x20, 0x24, 0x28, 0x2C, 0x30, 0x34, 0x38, 0x3C],
      ∀ r ∈ regAt off, r = .info ∨ r.isResult = true := by decide

/-- A write to an offset whose register, if there is one, is read-only changes nothing. -/
theorem writeOffset_readOnly {off : Offset} (h : ∀ r ∈ regAt off, r = .info ∨ r.isResult = true) (v : Word) (s : State) :
    s.writeOffset off v = s := by
  rcases writeOffset_cases off v s with ⟨-, e⟩ | ⟨r, hr, e⟩
  · exact e
  · exact e.trans (writeReg_readOnly (h r hr) v s)

/-- Spec R22, R47: a second write of the same ones to `STATUS` finds their flags clear already. -/
theorem clearStatus_clearStatus (w : Word) (s : State) : (s.clearStatus w).clearStatus w = s.clearStatus w := by
  simp [State.clearStatus]

/-- Spec R47: a repeated write to a register other than `CMD` changes nothing more. -/
theorem writeReg_writeReg {r : Reg} (hr : r ≠ .cmd) (v : Word) (s : State) :
    (s.writeReg r v).writeReg r v = s.writeReg r v := by
  cases r with
  | cmd => exact absurd rfl hr
  | status => exact clearStatus_clearStatus v s
  | _ => rfl

/-- Spec R34: whether it is accepted or dropped, a command write leaves the engine busy. -/
theorem requestCommand_eng (w : Word) (s : State) : (s.requestCommand w).eng = .busy := by
  rcases busy_or_idle s with h | h
  · rw [requestCommand_busy h, overrun_eng, h]
  · rw [requestCommand_idle h, accept_eng]

/-! ### Which accesses are answered -/

/-- Spec R42: an admitted access, read or write, is answered with a next state. -/
theorem busAccess_admitted {s : State} {a : Access} {off : Offset} (hoff : windowOffset s.tables a.addr = some off)
    (ad : Admitted s off a) : ∃ t, busAccess a s = .next t := by
  cases hw : a.write with
  | true => exact ⟨_, busAccess_write hoff ad hw⟩
  | false => exact ⟨_, busAccess_read hoff ad hw⟩

/-- Spec R42, R44: an access that is not admitted has a reason for its error. -/
theorem busProblem_of_not_admitted {s : State} {a : Access} {off : Offset} (h : ¬ Admitted s off a) :
    ∃ why, s.busProblem off a = some why :=
  Option.ne_none_iff_exists'.1 fun hnone => h ((busProblem_eq_none_iff s off a).1 hnone)

end Sys2Proof.Machine

namespace Sys2Proof.Proofs

open Sys2Proof Sys2Proof.Machine

/-- Settles O15: at these offsets stands a read-only register or none, so the write is only answered. -/
theorem readOnlyOffsetsIgnoreWrites : Obligations.ReadOnlyOffsetsIgnoreWrites := by
  intro s v off es hoff h
  rw [writeNext_step h, writeOffset_readOnly (readOnly_of_offset_mem off hoff)]
  rfl

/-- Settles O20: after the first command write the engine is busy, so the second is an overrun. -/
theorem writesAreIdempotentExceptCommand : Obligations.WritesAreIdempotentExceptCommand := by
  refine ⟨fun s r v hr => writeReg_writeReg hr v s, fun s v hovr => ⟨?_, fun hi => ?_⟩⟩
  · show ((s.requestCommand v).requestCommand v).ovr = true
    rw [requestCommand_busy (requestCommand_eng v s), overrun_ovr]
  · show (s.requestCommand v).ovr = false
    rw [requestCommand_idle hi, accept_ovr, hovr]

/-- Settles O21: the two clauses are an admitted access and one that is not, and admission does not depend on the schedule. -/
theorem accessFaultsExactlyWhenNotAdmitted : Obligations.AccessFaultsExactlyWhenNotAdmitted := by
  intro s a off es hoff hes
  rw [step_cons hes]
  constructor
  · rintro ⟨hsize, halign, hlanes, hrst⟩
    exact busAccess_admitted (s := { s with schedule := es }) hoff ⟨hrst, hsize, halign, hlanes⟩
  · intro hbad
    have hnot : ¬ Admitted s off a := by
      rintro ⟨hrst, hsize, halign, hlanes⟩
      simp [hrst, hsize, halign, hlanes] at hbad
    obtain ⟨why, hwhy⟩ := busProblem_of_not_admitted hnot
    exact ⟨why, busAccess_problem (s := { s with schedule := es }) hoff hwhy, present_problem hwhy⟩

/-- Settles O22: such an address has no offset in the window. -/
theorem accessOutsideWindowChangesNothing : Obligations.AccessOutsideWindowChangesNothing := by
  intro s a es hes hout
  rw [step_cons hes]
  exact busAccess_outside (s := { s with schedule := es }) (windowOffset_eq_none hout)

end Sys2Proof.Proofs
end

section
/-! SUPPORT. 30_encoding: the fields of a command word and what they decode to (R57 to R62), and the host's operations one by one (R63). -/

namespace Sys2Proof

/-! ### A word is its fields -/

/-- Spec R57: a word is `RSV`, `LEN` and `OP`, side by side. -/
theorem word_eq_fields (w : Word) : w = rsvField w ++ (lenField w ++ opField w) := by
  have hlow : lenField w ++ opField w = w.extractLsb' 0 8 := BitVec.extractLsb'_append_extractLsb'_eq_extractLsb' rfl
  have hall : rsvField w ++ w.extractLsb' 0 8 = w.extractLsb' 0 32 := BitVec.extractLsb'_append_extractLsb'_eq_extractLsb' rfl
  rw [hlow, hall, BitVec.extractLsb'_eq_self]

theorem eq_of_fields_eq {w v : Word} (hrsv : rsvField w = rsvField v) (hlen : lenField w = lenField v)
    (hop : opField w = opField v) : w = v := by
  rw [word_eq_fields w, word_eq_fields v, hrsv, hlen, hop]

theorem opcode_bounds (i : Instr) : 1 ≤ i.opcode ∧ i.opcode ≤ 9 := by cases i <;> simp [Instr.opcode]

/-- Spec R57: the fields of a well-formed command's word. -/
theorem encode_fields {i : Instr} (h : i.wellFormed = true) :
    (opField (encode i)).toNat = i.opcode ∧ (lenField (encode i)).toNat = i.len ∧ rsvField (encode i) = 0 := by
  have hop : i.opcode < 16 := Nat.lt_of_le_of_lt (opcode_bounds i).2 (by decide)
  exact Laws.EncodedFields.fields_of_parts i.len i.opcode (of_decide_eq_true h) hop

/-! ### Decoding, by the fields -/

/-- Spec R59: a word decodes to the command whose `OP` and `LEN` it holds, under a zero `RSV`. Later proofs use this and do not unfold `decode`. -/
theorem decode_eq_ok_iff {w : Word} {i : Instr} :
    decode w = .ok i ↔ rsvField w = 0 ∧ (opField w).toNat = i.opcode ∧ (lenField w).toNat = i.len := by
  constructor
  · intro h
    unfold decode at h
    split at h
    case isTrue => cases h
    case isFalse hrsv =>
      split at h
      case h_10 => cases h
      all_goals
        rename_i hop
        obtain rfl := Except.ok.inj h
        exact ⟨not_not.1 hrsv, hop, rfl⟩
  · rintro ⟨hrsv, hop, hlen⟩
    cases i <;> simp only [Instr.opcode, Instr.len] at hop hlen <;> simp [decode, hrsv, hop, hlen]

/-- Every `OP` from 1 to 9 has its command, with any `LEN` (spec R59). -/
theorem exists_command {op : Nat} (hmin : 1 ≤ op) (hmax : op ≤ 9) (len : Nat) : ∃ i : Instr, i.opcode = op ∧ i.len = len := by
  interval_cases op
  · exact ⟨.rfn len, rfl, rfl⟩
  · exact ⟨.rndf len, rfl, rfl⟩
  · exact ⟨.rndi len, rfl, rfl⟩
  · exact ⟨.permf len, rfl, rfl⟩
  · exact ⟨.permi len, rfl, rfl⟩
  · exact ⟨.walkf len, rfl, rfl⟩
  · exact ⟨.walki len, rfl, rfl⟩
  · exact ⟨.enc len, rfl, rfl⟩
  · exact ⟨.dec len, rfl, rfl⟩

/-- Spec R60: `RSV` is not 0, or `OP` is `0x0` or `0xA` to `0xF`. -/
def IllegalWord (w : Word) : Prop := rsvField w ≠ 0 ∨ opField w = 0 ∨ 0xA ≤ (opField w).toNat

theorem not_illegalWord_iff (w : Word) :
    ¬ IllegalWord w ↔ rsvField w = 0 ∧ 1 ≤ (opField w).toNat ∧ (opField w).toNat ≤ 9 := by
  have hzero : opField w = 0 ↔ (opField w).toNat = 0 := BitVec.toNat_inj.symm
  unfold IllegalWord
  rw [hzero, not_or, not_not, not_or]
  refine and_congr_right fun _ => ?_
  omega

/-- Spec R59, R60: the words that decode are those that are not illegal. -/
theorem exists_decode_eq_ok_iff (w : Word) : (∃ i, decode w = .ok i) ↔ ¬ IllegalWord w := by
  rw [not_illegalWord_iff]
  constructor
  · rintro ⟨i, h⟩
    obtain ⟨hrsv, hop, -⟩ := decode_eq_ok_iff.1 h
    exact ⟨hrsv, hop ▸ opcode_bounds i⟩
  · rintro ⟨hrsv, hmin, hmax⟩
    obtain ⟨i, hop, hlen⟩ := exists_command hmin hmax (lenField w).toNat
    exact ⟨i, decode_eq_ok_iff.2 ⟨hrsv, hop.symm, hlen.symm⟩⟩

theorem exists_decode_eq_error_iff (w : Word) : (∃ e, decode w = .error e) ↔ IllegalWord w := by
  rw [← not_iff_not, ← exists_decode_eq_ok_iff]
  cases decode w <;> simp

/-! ### The opcode table -/

theorem opcodeTable_mask : ∀ r ∈ opcodeTable, r.mask = 0xFFFFFF0F := by decide

/-- Spec R59, R62: each row's match word has an `OP` from 1 to 9 and zeros elsewhere. -/
theorem opcodeTable_value_fields : ∀ r ∈ opcodeTable,
    rsvField r.value = 0 ∧ lenField r.value = 0 ∧ 1 ≤ (opField r.value).toNat ∧ (opField r.value).toNat ≤ 9 := by decide

theorem opcodeTable_value_inj : ∀ r ∈ opcodeTable, ∀ q ∈ opcodeTable, r.value = q.value → r = q := by decide

theorem opcodeTable_mnemonic_inj : ∀ r ∈ opcodeTable, ∀ q ∈ opcodeTable, r.mnemonic = q.mnemonic → r = q := by decide

/-- The mask of the opcode table keeps `RSV` and `OP`, and clears `LEN`. -/
theorem and_mask_fields (w : Word) :
    rsvField (w &&& 0xFFFFFF0F) = rsvField w ∧ lenField (w &&& 0xFFFFFF0F) = 0 ∧ opField (w &&& 0xFFFFFF0F) = opField w := by
  unfold rsvField lenField opField
  rw [BitVec.extractLsb'_and, BitVec.extractLsb'_and, BitVec.extractLsb'_and]
  exact ⟨BitVec.and_allOnes, BitVec.and_zero, BitVec.and_allOnes⟩

/-- Spec R62: a row of the table matches a word by its `RSV` and its `OP` alone. -/
theorem matches_iff {r : OpcodeRow} (hr : r ∈ opcodeTable) (w : Word) :
    r.matches w = true ↔ rsvField w = 0 ∧ opField w = opField r.value := by
  obtain ⟨hrsv, hlen, -, -⟩ := opcodeTable_value_fields r hr
  obtain ⟨mrsv, mlen, mop⟩ := and_mask_fields w
  rw [OpcodeRow.matches, decide_eq_true_iff, opcodeTable_mask r hr]
  constructor
  · intro h
    rw [← hrsv, ← h]
    exact ⟨mrsv.symm, mop.symm⟩
  · rintro ⟨wrsv, wop⟩
    exact eq_of_fields_eq (mrsv.trans (wrsv.trans hrsv.symm)) (mlen.trans hlen.symm) (mop.trans wop)

theorem matches_unique {r q : OpcodeRow} {w : Word} (hr : r ∈ opcodeTable) (hq : q ∈ opcodeTable)
    (rm : r.matches w = true) (qm : q.matches w = true) : r = q := by
  have rv : w &&& r.mask = r.value := of_decide_eq_true rm
  have qv : w &&& q.mask = q.value := of_decide_eq_true qm
  refine opcodeTable_value_inj r hr q hq ?_
  rw [← rv, ← qv, opcodeTable_mask r hr, opcodeTable_mask q hq]

/-- A command's row of the opcode table. -/
def Instr.row (i : Instr) : OpcodeRow := ⟨i.mnemonic, 0xFFFFFF0F, BitVec.ofNat 32 i.opcode⟩

theorem row_mem (i : Instr) : i.row ∈ opcodeTable :=
  List.mem_of_getElem? (i := i.opcode - 1) (by cases i <;> rfl)

theorem opField_row_value (i : Instr) : (opField i.row.value).toNat = i.opcode := by cases i <;> rfl

theorem row_matches_of_decode {w : Word} {i : Instr} (h : decode w = .ok i) : i.row.matches w = true := by
  obtain ⟨hrsv, hop, -⟩ := decode_eq_ok_iff.1 h
  exact (matches_iff (row_mem i) w).2 ⟨hrsv, BitVec.eq_of_toNat_eq (hop.trans (opField_row_value i).symm)⟩

/-- Spec R62: of a word that decodes, the matching row is the one with the command's mnemonic. -/
theorem matches_iff_mnemonic_of_decode {r : OpcodeRow} {w : Word} {i : Instr} (hr : r ∈ opcodeTable) (h : decode w = .ok i) :
    r.matches w = true ↔ i.mnemonic = r.mnemonic := by
  constructor
  · intro hm
    exact congrArg OpcodeRow.mnemonic (matches_unique (row_mem i) hr (row_matches_of_decode h) hm)
  · intro hname
    obtain rfl := opcodeTable_mnemonic_inj i.row (row_mem i) r hr hname
    exact row_matches_of_decode h

theorem not_illegalWord_of_matches {r : OpcodeRow} {w : Word} (hr : r ∈ opcodeTable) (hm : r.matches w = true) :
    ¬ IllegalWord w := by
  obtain ⟨hrsv, hop⟩ := (matches_iff hr w).1 hm
  obtain ⟨-, -, hbounds⟩ := opcodeTable_value_fields r hr
  exact (not_illegalWord_iff w).2 ⟨hrsv, hop ▸ hbounds⟩

/-- Spec R62: a row matches exactly when the word decodes to a command of its name. -/
theorem matches_iff_decode {r : OpcodeRow} (hr : r ∈ opcodeTable) (w : Word) :
    r.matches w = true ↔ ∃ i, decode w = .ok i ∧ i.mnemonic = r.mnemonic := by
  constructor
  · intro hm
    obtain ⟨i, h⟩ := (exists_decode_eq_ok_iff w).2 (not_illegalWord_of_matches hr hm)
    exact ⟨i, h, (matches_iff_mnemonic_of_decode hr h).1 hm⟩
  · rintro ⟨i, h, hname⟩
    exact (matches_iff_mnemonic_of_decode hr h).2 hname

/-- Spec R62: a word is illegal exactly when it matches no row. -/
theorem no_match_iff_illegalWord (w : Word) : (∀ r ∈ opcodeTable, r.matches w = false) ↔ IllegalWord w := by
  constructor
  · intro hnone
    by_contra hlegal
    obtain ⟨i, h⟩ := (exists_decode_eq_ok_iff w).2 hlegal
    exact absurd (row_matches_of_decode h) (by simp [hnone i.row (row_mem i)])
  · intro hill r hr
    exact Bool.eq_false_of_not_eq_true fun hm => not_illegalWord_of_matches hr hm hill

namespace Machine

/-! ### Illegal words at the machine -/

/-- Spec R60: the running word, when it is illegal, fails with error 1. -/
theorem runCommand_of_illegalWord {s : State} (h : IllegalWord s.cmd) :
    runCommand s = .next (s.failed .illegalCommand 0) := by
  obtain ⟨e, he⟩ := (exists_decode_eq_error_iff s.cmd).2 h
  simp only [runCommand, he]
  rfl

/-- A bus master's own write to a register, with `rst` deasserted, is the register's write, answered. -/
theorem step_memWrite {s : State} {r : Reg} {v : Word} {es : List Event} (hr : s.rst = false)
    (hes : s.schedule = .access (memWrite s.tables r.offset v) :: es) :
    step s = .next ((State.writeReg r v { s with schedule := es }).answered .done) :=
  writeNext_reg ⟨_, hes, windowOffset_base s.tables r.offset, rfl, rfl, admitted_memWrite s.tables r v hr⟩

/-! ### The host's turn -/

/-- A program that has halted does nothing (log 13). -/
theorem hostTurn_of_halted {s : State} (h : s.host.halted = true) : hostTurn s = .next s := by
  simp [hostTurn, h]

/-- A program with no operation left does nothing (log 13). -/
theorem hostTurn_of_end {s : State} (h : s.host.prog[s.host.pc]? = none) : hostTurn s = .next s := by
  simp [hostTurn, h]

/-- The host's turn runs the operation at its place in the program. -/
theorem step_hostOp {s : State} {es : List Event} {op : HostOp} (hrun : s.host.halted = false)
    (hes : s.schedule = .hostTurn :: es) (hop : s.host.prog[s.host.pc]? = some op) :
    step s = hostOp op { s with schedule := es } := by
  rw [step_cons hes]
  simp [handle, hostTurn, hrun, hop]

/-! ### `W` and `R` -/

/-- No register write changes the host agent. -/
@[simp] theorem writeReg_host (r : Reg) (v : Word) (s : State) : (s.writeReg r v).host = s.host := by
  rcases writeReg_cases r v s with e | ⟨-, e⟩ | ⟨-, -, e⟩ | ⟨-, -, e⟩ | ⟨-, e⟩ | ⟨-, e⟩ | ⟨-, e⟩ | ⟨-, e⟩ | ⟨-, e⟩ <;>
    rw [e] <;> rfl

/-- Spec R63, form `W`: the register's write, answered and recorded. -/
theorem hostOp_write {s : State} (hr : s.rst = false) (r : Reg) (src : Src) :
    hostOp (.write r src) s =
      .next (((s.writeReg r (s.host.source src)).answered .done).withHost
        (s.host.advance.record (.w r.offset (s.host.source src)))) := by
  simp only [hostOp, busAccess_memWrite r _ hr, andThen, hostWrote, answered_host, writeReg_host]

/-- Spec R63, form `R`: the value the window gives, answered, put into `tN` and recorded. -/
theorem hostOp_read {s t : State} {r : Reg} {v : Word} (hr : s.rst = false) (hread : s.readOffset r.offset = (v, t))
    (d : Fin 8) :
    hostOp (.read r d) s =
      .next ((t.answered (.data v)).withHost ((t.host.advance.setTemp d v).record (.r r.offset v))) := by
  simp only [hostOp, busAccess_memRead r hr, hread, andThen]
  rfl

/-- Spec R36: the registers that are unspecified while busy, as a list. -/
theorem isResult_iff_mem (r : Reg) : r.isResult = true ↔ r ∈ [Reg.result, .chrOut0, .chrOut1, .steps] := by
  cases r <;> decide

/-- Spec R110: under `rst` every access within the window is a bus error. -/
theorem busAccess_inReset {s : State} {a : Access} {off : Offset} (hr : s.rst = true)
    (hoff : windowOffset s.tables a.addr = some off) : busAccess a s = .fault (.busError .inReset) :=
  busAccess_problem hoff (by simp [State.busProblem, hr])

theorem hostOp_write_inReset {s : State} (hr : s.rst = true) (r : Reg) (src : Src) :
    hostOp (.write r src) s = .fault (.busError .inReset) := by
  have hfault : busAccess (memWrite s.tables r.offset (s.host.source src)) s = .fault (.busError .inReset) :=
    busAccess_inReset hr (windowOffset_base s.tables r.offset)
  simp only [hostOp, hfault, andThen]

theorem hostOp_read_inReset {s : State} (hr : s.rst = true) (r : Reg) (d : Fin 8) :
    hostOp (.read r d) s = .fault (.busError .inReset) := by
  have hfault : busAccess (memRead s.tables r.offset) s = .fault (.busError .inReset) :=
    busAccess_inReset hr (windowOffset_base s.tables r.offset)
  simp only [hostOp, hfault, andThen]

/-! ### Branches and `WAITIRQ` -/

theorem hostJump_of_target {s : State} {l i : Nat} (h : labelTarget s.host.prog l = some i) :
    hostJump l s = .next (s.withHost { s.host with pc := i }) := by
  simp only [hostJump, h]

/-- The model's choice (log 13) for a label that is missing or stands twice. -/
theorem hostJump_of_no_target {s : State} {l : Nat} (h : labelTarget s.host.prog l = none) :
    hostJump l s = .refused .unknownLabel := by
  simp only [hostJump, h]

theorem hostOp_bnz_taken {s : State} {t : Fin 8} {mask : Word} (h : s.host.temps[t] &&& mask ≠ 0) (l : Nat) :
    hostOp (.bnz t mask l) s = hostJump l s :=
  if_pos (decide_eq_true h)

theorem hostOp_bnz_not_taken {s : State} {t : Fin 8} {mask : Word} (h : s.host.temps[t] &&& mask = 0) (l : Nat) :
    hostOp (.bnz t mask l) s = .next (s.withHost s.host.advance) :=
  if_neg (by simpa using h)

theorem hostOp_bz_taken {s : State} {t : Fin 8} {mask : Word} (h : s.host.temps[t] &&& mask = 0) (l : Nat) :
    hostOp (.bz t mask l) s = hostJump l s :=
  if_pos (decide_eq_true h)

theorem hostOp_bz_not_taken {s : State} {t : Fin 8} {mask : Word} (h : s.host.temps[t] &&& mask ≠ 0) (l : Nat) :
    hostOp (.bz t mask l) s = .next (s.withHost s.host.advance) :=
  if_neg (by simpa using h)

/-- Spec R63: `WAITIRQ` goes on when `irq` is 1, and otherwise stays where it is. -/
theorem hostOp_waitIrq (s : State) :
    hostOp .waitIrq s = .next (s.withHost { s.host with pc := if s.irq then s.host.pc + 1 else s.host.pc }) := by
  unfold hostOp
  cases s.irq with
  | true => rfl
  | false => rfl

end Machine

end Sys2Proof

namespace Sys2Proof.Proofs

open Sys2Proof Sys2Proof.Machine

/-- Settles O2: the fields of the encoded word are the command's, and the fields decide what a word decodes to. -/
theorem encodedCommandDecodesBack : Obligations.EncodedCommandDecodesBack := by
  intro i h
  obtain ⟨hop, hlen, hrsv⟩ := encode_fields h
  exact decode_eq_ok_iff.2 ⟨hrsv, hop, hlen⟩

/-- Settles O3: the encoding has the three fields of the word, and a word is its fields. -/
theorem decodedWordEncodesBack : Obligations.DecodedWordEncodesBack := by
  intro w i h
  obtain ⟨hrsv, hop, hlen⟩ := decode_eq_ok_iff.1 h
  have hwf : i.wellFormed = true := decide_eq_true (hlen ▸ (lenField w).isLt)
  obtain ⟨eop, elen, ersv⟩ := encode_fields hwf
  exact ⟨hwf, eq_of_fields_eq (ersv.trans hrsv.symm) (BitVec.eq_of_toNat_eq (elen.trans hlen.symm))
    (BitVec.eq_of_toNat_eq (eop.trans hop.symm))⟩

/-- Settles O4: a row matches by `RSV` and `OP`, which also decide whether a word decodes, and to which command. -/
theorem opcodeTableDecidesDecoding : Obligations.OpcodeTableDecidesDecoding :=
  ⟨opcodeTable_mask, fun w =>
    ⟨fun _ hr => matches_iff_decode hr w, fun _ hr _ hq => matches_unique hr hq,
      (no_match_iff_illegalWord w).trans (exists_decode_eq_error_iff w).symm⟩⟩

/-- Settles O7: acceptance does not look at the word, and the word's completion is the failure of `runCommand_of_illegalWord`. -/
theorem illegalWordCompletesWithErrorOne : Obligations.IllegalWordCompletesWithErrorOne := by
  intro s w hill
  constructor
  · intro hr hi es hes
    have hstep : step s = .next ((State.requestCommand w { s with schedule := es }).answered .done) :=
      step_memWrite (r := .cmd) hr hes
    rw [requestCommand_idle (s := { s with schedule := es }) hi] at hstep
    exact ⟨_, hstep, rfl, rfl⟩
  · rintro hr hb rfl es hes
    rw [step_cons hes]
    exact (engineTurn_busy (s := { s with schedule := es }) hr hb).trans
      (runCommand_of_illegalWord (s := { s with schedule := es }) hill)

/-- Settles O58: the two forms as one access each; a read is of a defined register or of a free draw, and under `rst` neither is answered. -/
theorem hostWritesAndReadsRegisters : Obligations.HostWritesAndReadsRegisters := by
  intro s es hrun hes
  refine ⟨fun r src v hr hop hv => ?_, fun r d hr hop hdef => ?_, fun r d hr hop hb hres => ?_, fun hr hop => ?_⟩
  · obtain rfl : v = s.host.source src := hv.trans (by cases src <;> rfl)
    exact (step_hostOp hrun hes hop).trans (hostOp_write (s := { s with schedule := es }) hr r src)
  · have hdef' : s.eng = .idle ∨ r.isResult = false :=
      hdef.imp_right fun h => Bool.eq_false_of_not_eq_true fun hres => h ((isResult_iff_mem r).1 hres)
    rw [step_hostOp hrun hes hop, hostOp_read (s := { s with schedule := es }) hr (readOffset_defined hdef') d,
      regValue_schedule]
    rfl
  · exact (step_hostOp hrun hes hop).trans
      (hostOp_read (s := { s with schedule := es }) hr (readOffset_free hb ((isResult_iff_mem r).2 hres)) d)
  · rcases hop with ⟨r, src, hop⟩ | ⟨r, d, hop⟩
    · exact (step_hostOp hrun hes hop).trans (hostOp_write_inReset (s := { s with schedule := es }) hr r src)
    · exact (step_hostOp hrun hes hop).trans (hostOp_read_inReset (s := { s with schedule := es }) hr r d)

/-- Settles O59, form by form. -/
theorem hostControlLeavesTheBlock : Obligations.HostControlLeavesTheBlock := by
  intro s es hes
  refine ⟨?_, fun hrun => ?_⟩
  · rw [step_cons hes]
    rintro (hhalted | hend)
    · exact hostTurn_of_halted (s := { s with schedule := es }) hhalted
    · exact hostTurn_of_end (s := { s with schedule := es }) hend
  · have hstep : ∀ {op}, s.host.prog[s.host.pc]? = some op → step s = hostOp op { s with schedule := es } :=
      step_hostOp hrun hes
    have hjump : ∀ {l i}, labelTarget s.host.prog l = some i →
        hostJump l { s with schedule := es } = .next { s with schedule := es, host := { s.host with pc := i } } :=
      hostJump_of_target (s := { s with schedule := es })
    refine ⟨fun t mask l hop => ⟨fun h => ?_, fun i h hl => ?_⟩, fun t mask l hop => ⟨fun h => ?_, fun i h hl => ?_⟩,
      fun l i hop hl => (hstep hop).trans (hjump hl), fun l hl hop => ?_, fun l hop => hstep hop,
      fun d a b hop => hstep hop, fun hop => (hstep hop).trans (hostOp_waitIrq _), fun hop => hstep hop⟩
    · exact (hstep hop).trans (hostOp_bnz_not_taken (s := { s with schedule := es }) h l)
    · exact (hstep hop).trans ((hostOp_bnz_taken (s := { s with schedule := es }) h l).trans (hjump hl))
    · exact (hstep hop).trans (hostOp_bz_not_taken (s := { s with schedule := es }) h l)
    · exact (hstep hop).trans ((hostOp_bz_taken (s := { s with schedule := es }) h l).trans (hjump hl))
    · have hrefused : hostJump l { s with schedule := es } = .refused .unknownLabel :=
        hostJump_of_no_target (s := { s with schedule := es }) hl
      rcases hop with hop | ⟨t, mask, hop, h⟩ | ⟨t, mask, hop, h⟩
      · exact (hstep hop).trans hrefused
      · exact (hstep hop).trans ((hostOp_bnz_taken (s := { s with schedule := es }) h l).trans hrefused)
      · exact (hstep hop).trans ((hostOp_bz_taken (s := { s with schedule := es }) h l).trans hrefused)

/-- Settles O5: closed words, each decoded by evaluation. -/
theorem writtenOutWordsDecode : Obligations.WrittenOutWordsDecode := by
  unfold Obligations.WrittenOutWordsDecode
  decide

end Sys2Proof.Proofs
end

section
/-! SUPPORT. 40_round: the round function's last 16 bits (R65, R66, R72), the packing of halves, and what one Feistel round gives (R67 to R71). -/

namespace Sys2Proof.Machine

/-! ### The round function on 16 bits -/

/-- Spec R72 item 2: the low 16 bits after a step need only the low 16 bits before it, since a product's and an XOR's do. -/
theorem fnvStep_lowBits (acc : Acc) (b : Byte) :
    (fnvStep acc b).extractLsb' 0 16 = acc.extractLsb' 0 16 * 0x01B3 ^^^ b.setWidth 16 := by
  have hmul : (acc * Config.fnvPrime).setWidth 16 = acc.setWidth 16 * 0x01B3 := BitVec.setWidth_mul _ _ (by decide)
  have hbyte : (b.setWidth 64).setWidth 16 = b.setWidth 16 := BitVec.setWidth_setWidth_of_le b (by decide)
  simp only [← BitVec.setWidth_eq_extractLsb' (by decide : 16 ≤ 64), fnvStep, BitVec.setWidth_xor, hmul, hbyte]

/-- Spec R72 item 4: the key's high byte comes in with the last XOR, after the last multiply. -/
theorem roundFn_eq_xor_keyHigh (p : Bool) (x k : Half) :
    roundFn p x k =
      ([x.extractLsb' 0 8, x.extractLsb' 8 8, k.extractLsb' 0 8].foldl fnvStep (fnvStart p)).extractLsb' 0 16 * 0x01B3
        ^^^ (k.extractLsb' 8 8).setWidth 16 :=
  fnvStep_lowBits _ _

/-- A word XORed into both sides cancels. -/
theorem xor_common_left {n : Nat} (c a b : BitVec n) : (c ^^^ a) ^^^ (c ^^^ b) = a ^^^ b := by
  rw [xor_comm c a, BitVec.xor_assoc, xor_cancel_left]

/-! ### The Feistel round on pairs -/

/-- Spec R72 item 1: the inverse round recomputes the same `F(r, k)` and XORs it away. -/
@[simp] theorem roundI_roundF (p : Bool) (l r k : Half) :
    roundI p (roundF p l r k).1 (roundF p l r k).2 k = (l, r) :=
  Prod.ext (xor_cancel_left (roundFn p r k) l) rfl

/-! ### Halves of a word -/

@[simp] theorem lowHalf_append (hi lo : Half) : lowHalf (hi ++ lo) = lo := BitVec.extractLsb'_append_eq_right

@[simp] theorem highHalf_append (hi lo : Half) : highHalf (hi ++ lo) = hi := BitVec.extractLsb'_append_eq_left

/-- Packing a pair and splitting the word are inverse to each other (spec R70, R73). -/
@[simp] theorem splitHalves_joinHalves (p : Half × Half) : splitHalves (joinHalves p) = p :=
  Prod.ext (lowHalf_append p.2 p.1) (highHalf_append p.2 p.1)

@[simp] theorem joinHalves_splitHalves (x : Word) : joinHalves (splitHalves x) = x :=
  BitVec.extractLsb'_append_extractLsb'

/-! ### The three commands -/

theorem exec_rndf (n : Nat) (s : State) :
    exec (.rndf n) s = .next (s.succeeded (joinHalves (roundF s.tables.premultiply s.opL s.opR s.opK)) 0 0 0) := rfl

theorem exec_rndi (n : Nat) (s : State) :
    exec (.rndi n) s = .next (s.succeeded (joinHalves (roundI s.tables.premultiply s.opL s.opR s.opK)) 0 0 0) := rfl

/-- The operand pair `(l, r)` is the split of `LA0` (spec R70, R71). -/
theorem opL_opR_of_la0 {s : State} {p : Half × Half} (h : s.la0 = joinHalves p) : s.opL = p.1 ∧ s.opR = p.2 :=
  Prod.mk.inj ((congrArg splitHalves h).trans (splitHalves_joinHalves p))

end Sys2Proof.Machine

namespace Sys2Proof.Proofs

open Sys2Proof Sys2Proof.Machine

/-- Settles O38: RNDF's `RESULT` splits into the forward round's pair, and the inverse round with the same key undoes it. -/
theorem rndiUndoesRndf : Obligations.RndiUndoesRndf := by
  intro m n s t u hs htables hla0 hkey
  rw [exec_rndf] at hs
  obtain rfl := Host.Outcome.next.inj hs
  obtain ⟨hl, hr⟩ := opL_opR_of_la0 hla0
  have hk : u.opK = s.opK := hkey
  refine ⟨_, exec_rndi n u, ?_⟩
  show joinHalves (roundI u.tables.premultiply u.opL u.opR u.opK) = s.la0
  rw [htables, hl, hr, hk, roundI_roundF]
  exact joinHalves_splitHalves s.la0

/-- Settles O39: each of the four steps reduces to 16 bits, and the offset basis ends in `0x2325`. -/
theorem roundFunctionReducesToSixteenBits : Obligations.RoundFunctionReducesToSixteenBits := by
  intro x k
  have hstart : (fnvStart false).extractLsb' 0 16 = 0x2325 := by decide
  simp only [roundFn, roundBytes, List.foldl_cons, List.foldl_nil, fnvStep_lowBits, hstart]

/-- Settles O40: up to the last multiply the two keys give the same accumulator, and the XOR cancels it. -/
theorem keyHighByteOnlyXorsLowByte : Obligations.KeyHighByteOnlyXorsLowByte := by
  intro p x k k' hlow
  rw [roundFn_eq_xor_keyHigh p x k, roundFn_eq_xor_keyHigh p x k', hlow, xor_common_left, BitVec.setWidth_xor]

/-- Settles O34: `roundFn` folds `fnvStep` over the four bytes in that order, from `fnvStart`. -/
theorem roundFunctionIsTruncatedFnv : Obligations.RoundFunctionIsTruncatedFnv :=
  fun _ _ => ⟨rfl, rfl⟩

/-- Settles O35: `execRfn` has one path, which completes with this value by definition. -/
theorem rfnGivesRoundFunction : Obligations.RfnGivesRoundFunction := fun _ _ => rfl

/-- Settles O36: the operand pair is `(l, r)`, and `RESULT` is the forward round's pair, packed. -/
theorem rndfGivesForwardRound : Obligations.RndfGivesForwardRound := by
  intro len s l r hla0
  obtain ⟨hl, hr⟩ := opL_opR_of_la0 (p := (l, r)) hla0
  rw [exec_rndf, hl, hr]
  rfl

/-- Settles O37: the operand pair is `(l', r')`, and `RESULT` is the inverse round's pair, packed. -/
theorem rndiGivesInverseRound : Obligations.RndiGivesInverseRound := by
  intro len s l r hla0
  obtain ⟨hl, hr⟩ := opL_opR_of_la0 (p := (l, r)) hla0
  rw [exec_rndi, hl, hr]
  rfl

end Sys2Proof.Proofs
end

section
/-! SUPPORT. 41_permutation: the rounds over a list of keys are undone in reverse order (R77), and the closed forms of the two-round permutation (R73 to R76). -/

namespace Sys2Proof.Machine

/-! ### Rounds over a list of keys -/

/-- Steps taken back last first: what undoes one step undoes a list of them, read in reverse. -/
theorem foldl_reverse_foldl {α β : Type} {f g : α → β → α} (h : ∀ p k, g (f p k) k = p) (ks : List β) (p : α) :
    ks.reverse.foldl g (ks.foldl f p) = p := by
  induction ks generalizing p with
  | nil => rfl
  | cons k ks ih =>
    rw [List.foldl_cons, List.reverse_cons, List.foldl_append, ih]
    exact h p k

/-- The forward round recomputes the same `F(l', k)` as the inverse round and XORs it away (spec R67, R68). -/
@[simp] theorem roundF_roundI (p : Bool) (l r k : Half) :
    roundF p (roundI p l r k).1 (roundI p l r k).2 k = (l, r) :=
  Prod.ext rfl (xor_cancel_left (roundFn p l k) r)

/-- Spec R77 item 1. -/
@[simp] theorem decode32_encode32 (t : Tables) (x : Word) : decode32 t (encode32 t x) = x := by
  have hround : ∀ p k, stepI t (stepF t p k) k = p := fun p k => roundI_roundF t.premultiply p.1 p.2 k
  rw [decode32, encode32, splitHalves_joinHalves, foldl_reverse_foldl hround, joinHalves_splitHalves]

@[simp] theorem encode32_decode32 (t : Tables) (y : Word) : encode32 t (decode32 t y) = y := by
  have hround : ∀ p k, stepF t (stepI t p k) k = p := fun p k => roundF_roundI t.premultiply p.1 p.2 k
  have hkeys := foldl_reverse_foldl hround (keysOf t).reverse (splitHalves y)
  rw [List.reverse_reverse] at hkeys
  rw [encode32, decode32, splitHalves_joinHalves, hkeys, joinHalves_splitHalves]

theorem encode32_bijective (t : Tables) : Function.Bijective (encode32 t) :=
  Function.bijective_iff_has_inverse.2 ⟨decode32 t, decode32_encode32 t, encode32_decode32 t⟩

/-! ### Closed forms -/

/-- Spec R77 item 2, for the forward direction: `m` and `h` are the results of the two rounds. -/
theorem encode32_append (t : Tables) {l r m h : Half} (hm : m = roundFn t.premultiply r t.key0 ^^^ l)
    (hh : h = roundFn t.premultiply m t.key1 ^^^ r) : encode32 t (r ++ l) = h ++ m := by
  have hsplit : splitHalves (r ++ l) = (l, r) := splitHalves_joinHalves (l, r)
  rw [encode32, hsplit, hh, hm]
  rfl

/-- The inverse direction, from the forward one: the pair `{r, l}` this gives encodes to `{h, m}`. -/
theorem decode32_append (t : Tables) {m h l r : Half} (hr : r = h ^^^ roundFn t.premultiply m t.key1)
    (hl : l = m ^^^ roundFn t.premultiply r t.key0) : decode32 t (h ++ m) = r ++ l := by
  have hm : m = roundFn t.premultiply r t.key0 ^^^ l := by rw [hl, xor_comm m, xor_cancel_left]
  have hh : h = roundFn t.premultiply m t.key1 ^^^ r := by rw [hr, xor_comm h, xor_cancel_left]
  rw [← encode32_append t hm hh, decode32_encode32]

/-- Spec R77 item 3: the second round moves the first round's result to the low half unchanged, so `KEY[1]` does not reach it. -/
theorem lowHalf_encode32 (t : Tables) (x : Word) :
    lowHalf (encode32 t x) = roundFn t.premultiply (highHalf x) t.key0 ^^^ lowHalf x :=
  lowHalf_append _ _

/-! ### The two commands -/

theorem exec_permf (n : Nat) (s : State) :
    exec (.permf n) s = .next (s.succeeded (encode32 s.tables s.la0) 0 0 1) := rfl

theorem exec_permi (n : Nat) (s : State) :
    exec (.permi n) s = .next (s.succeeded (decode32 s.tables s.la0) 0 0 1) := rfl

end Sys2Proof.Machine

namespace Sys2Proof.Proofs

open Sys2Proof Sys2Proof.Machine

/-- Settles O43: each inverse round takes back its forward round, and the closed forms are those of two rounds. -/
theorem permutationIsBijective : Obligations.PermutationIsBijective := fun t =>
  ⟨decode32_encode32 t, encode32_decode32 t, encode32_bijective t, fun _ _ => encode32_append t rfl rfl,
    fun _ _ => decode32_append t rfl rfl, fun x k => lowHalf_encode32 { t with key1 := k } x⟩

/-- Settles O41: PERMF has one path, and its `RESULT` is the forward closed form. -/
theorem permfGivesTwoForwardRounds : Obligations.PermfGivesTwoForwardRounds := by
  intro len s l r m h hla0 hm hh
  rw [exec_permf, hla0, encode32_append s.tables hm hh]

/-- Settles O42: PERMI has one path, and its `RESULT` is the inverse closed form. -/
theorem permiGivesTwoInverseRounds : Obligations.PermiGivesTwoInverseRounds := by
  intro len s m h l r hla0 hr hl
  rw [exec_permi, hla0, decode32_append s.tables hr hl]

end Sys2Proof.Proofs
end

section
/-! SUPPORT. 42_cycle_walk: when a walk has a value, how many steps it can take (R82), and what two walks share (R83). -/

namespace Sys2Proof.Machine

/-! ### The fuelled walk and its value -/

/-- Spec R78, R79: a walk that ends within its fuel has that value and that many steps more. -/
theorem walk_eq_of_walkEnds {f : Word → Word} {v w : Word} {fuel k m : Nat} (h : WalkEnds f v w k) (hk : k ≤ fuel) :
    walk f fuel v m = some (w, m + k) := by
  induction fuel generalizing v k m with
  | zero => exact absurd (h.atLeastOnce.trans hk) (by decide)
  | succ fuel ih =>
    obtain ⟨hk1, hvalue, hbelow, hfirst⟩ := h
    rw [walk]
    by_cases hone : k = 1
    · subst hone
      obtain rfl : f v = w := hvalue
      rw [if_pos ((inRange_iff _).2 hbelow)]
    · have habove : 0x40000000 ≤ (f v).toNat := hfirst 1 le_rfl (by omega)
      have hrest : WalkEnds f (f v) w (k - 1) :=
        { atLeastOnce := by omega
          value := by rwa [← Function.iterate_succ_apply, Nat.succ_eq_add_one, Nat.sub_add_cancel hk1]
          below := hbelow
          first := fun j h1 h2 => hfirst (j + 1) (by omega) (by omega) }
      rw [if_neg fun hin => absurd ((inRange_iff _).1 hin) (Nat.not_lt.2 habove), ih hrest (by omega)]
      congr 2
      omega

/-- The walk of a command has a value exactly where it ends within the fuel (spec R82). -/
theorem walk_eq_some_iff {f : Word → Word} {v w : Word} {n : Nat} :
    walk f Config.walkFuel v 0 = some (w, n) ↔ WalkEnds f v w n ∧ n ≤ 0xC0000001 := by
  constructor
  · intro h
    obtain ⟨k, rfl, hk, hends⟩ := walk_spec h
    rw [Nat.zero_add]
    exact ⟨hends, hk⟩
  · rintro ⟨hends, hn⟩
    rw [walk_eq_of_walkEnds (fuel := Config.walkFuel) hends hn, Nat.zero_add]

/-! ### Every walk from below `N` ends (R82) -/

/-- A walk ends when some later iterate is below `N`: at the first such one. -/
theorem exists_walkEnds_of_below {f : Word → Word} {v : Word} (h : ∃ k, 1 ≤ k ∧ (f^[k] v).toNat < 0x40000000) :
    ∃ w n, WalkEnds f v w n := by
  obtain ⟨hone, hbelow⟩ := Nat.find_spec h
  exact ⟨_, Nat.find h, hone, rfl, hbelow, fun j h1 hj => Nat.le_of_not_lt fun hlt => Nat.find_min h hj ⟨h1, hlt⟩⟩

/-- Below `N` the walk ends, at the latest when the cycle comes back to its start. -/
theorem exists_walkEnds {f : Word → Word} (hf : f.Injective) {v : Word} (hv : v.toNat < 0x40000000) :
    ∃ w n, WalkEnds f v w n := by
  obtain ⟨c, hc, hperiod⟩ := Function.mem_periodicPts.1 (hf.mem_periodicPts v)
  exact exists_walkEnds_of_below ⟨c, hc, by rwa [hperiod.eq]⟩

/-- Two walks of an injective map from below `N` do not meet after different numbers of steps:
taking the common steps back would leave one of them at the other's start, which is below `N`. -/
theorem WalkEnds.eq_of_meet {f : Word → Word} (hf : f.Injective) {v v' w : Word} {n i j : Nat} (h : WalkEnds f v w n)
    (hv' : v'.toNat < 0x40000000) (hi : 1 ≤ i) (hij : i ≤ j) (hj : j ≤ n) (hmeet : f^[j] v = f^[i] v') : j = i := by
  have hback : f^[j - i] v = v' := by
    apply hf.iterate i
    rwa [← Function.iterate_add_apply, Nat.add_sub_of_le hij]
  by_contra hne
  have habove := h.first (j - i) (by omega) (by omega)
  rw [hback] at habove
  omega

/-- The visits of two such walks are one visit when they reach one value. -/
theorem WalkEnds.visit_unique {f : Word → Word} (hf : f.Injective) {v v' w w' : Word} {n n' i j : Nat}
    (h : WalkEnds f v w n) (h' : WalkEnds f v' w' n') (hv : v.toNat < 0x40000000) (hv' : v'.toNat < 0x40000000)
    (hi : i ∈ Finset.Icc 1 n) (hj : j ∈ Finset.Icc 1 n') (hmeet : f^[i] v = f^[j] v') : i = j ∧ v = v' := by
  obtain ⟨hi1, hin⟩ := Finset.mem_Icc.1 hi
  obtain ⟨hj1, hjn⟩ := Finset.mem_Icc.1 hj
  obtain rfl : i = j := by
    rcases le_total i j with hij | hji
    · exact (h'.eq_of_meet hf hv hi1 hij hjn hmeet.symm).symm
    · exact h.eq_of_meet hf hv' hj1 hji hin hmeet
  exact ⟨rfl, hf.iterate i hmeet⟩

/-- Spec R82: the values before the last are pairwise distinct and none is below `N`, so there are at most `2^32 - N` of them. -/
theorem WalkEnds.steps_le {f : Word → Word} (hf : f.Injective) {v w : Word} {n : Nat} (h : WalkEnds f v w n)
    (hv : v.toNat < 0x40000000) : n ≤ 0xC0000001 := by
  have hmaps : Set.MapsTo (fun j => (f^[j] v).toNat) (Finset.Ico 1 n) (Finset.Ico 0x40000000 (2 ^ 32)) := by
    intro j hj
    obtain ⟨h1, h2⟩ := Finset.mem_Ico.1 hj
    exact Finset.mem_Ico.2 ⟨h.first j h1 h2, (f^[j] v).isLt⟩
  have hinj : Set.InjOn (fun j => (f^[j] v).toNat) (Finset.Ico 1 n) := by
    intro i hi j hj heq
    have hmeet : f^[i] v = f^[j] v := BitVec.eq_of_toNat_eq heq
    exact (h.visit_unique hf h hv hv (Finset.Ico_subset_Icc_self hi) (Finset.Ico_subset_Icc_self hj) hmeet).1
  have hcard := Finset.card_le_card_of_injOn _ hmaps hinj
  rw [Nat.card_Ico, Nat.card_Ico] at hcard
  omega

/-- Spec R82: the fuel never runs out below `N`. -/
theorem exists_walk {f : Word → Word} (hf : f.Injective) {v : Word} (hv : v.toNat < 0x40000000) :
    ∃ w n, walk f Config.walkFuel v 0 = some (w, n) ∧ n ≤ 0xC0000001 ∧ WalkEnds f v w n := by
  obtain ⟨w, n, hends⟩ := exists_walkEnds hf hv
  have hn := hends.steps_le hf hv
  exact ⟨w, n, walk_eq_some_iff.2 ⟨hends, hn⟩, hn, hends⟩

/-- Below `N`, a walk's value and steps are exactly those of R78 and R79. -/
theorem walk_eq_some_iff_walkEnds {f : Word → Word} (hf : f.Injective) {v w : Word} {n : Nat} (hv : v.toNat < 0x40000000) :
    walk f Config.walkFuel v 0 = some (w, n) ↔ WalkEnds f v w n :=
  walk_eq_some_iff.trans ⟨And.left, fun h => ⟨h, h.steps_le hf hv⟩⟩

theorem encode32_injective (t : Tables) : (encode32 t).Injective := Function.LeftInverse.injective (decode32_encode32 t)

theorem decode32_injective (t : Tables) : (decode32 t).Injective := Function.LeftInverse.injective (encode32_decode32 t)

theorem walkF_eq_some_iff {t : Tables} {v w : Word} {n : Nat} (hv : v.toNat < 0x40000000) :
    walkF t v = some (w, n) ↔ WalkEnds (encode32 t) v w n :=
  walk_eq_some_iff_walkEnds (encode32_injective t) hv

theorem walkI_eq_some_iff {t : Tables} {v w : Word} {n : Nat} (hv : v.toNat < 0x40000000) :
    walkI t v = some (w, n) ↔ WalkEnds (decode32 t) v w n :=
  walk_eq_some_iff_walkEnds (decode32_injective t) hv

theorem exists_walkF (t : Tables) {v : Word} (hv : v.toNat < 0x40000000) :
    ∃ w n, walkF t v = some (w, n) ∧ n ≤ 0xC0000001 ∧ WalkEnds (encode32 t) v w n :=
  exists_walk (encode32_injective t) hv

theorem exists_walkI (t : Tables) {v : Word} (hv : v.toNat < 0x40000000) :
    ∃ w n, walkI t v = some (w, n) ∧ n ≤ 0xC0000001 ∧ WalkEnds (decode32 t) v w n :=
  exists_walk (decode32_injective t) hv

/-! ### The walk taken back (R83) -/

/-- Spec R83 item 3: the inverse walk visits the same values in reverse order, and stops at the start, the first of them below `N`. -/
theorem WalkEnds.reverse {f g : Word → Word} (hg : Function.LeftInverse g f) {v w : Word} {n : Nat} (h : WalkEnds f v w n)
    (hv : v.toNat < 0x40000000) : WalkEnds g w v n := by
  have hback : ∀ j ≤ n, g^[j] w = f^[n - j] v := by
    intro j hj
    have hsplit : w = f^[j] (f^[n - j] v) := by rw [← Function.iterate_add_apply, Nat.add_sub_of_le hj, h.value]
    rw [hsplit, hg.iterate j]
  exact
    { atLeastOnce := h.atLeastOnce
      value := by rw [hback n le_rfl, Nat.sub_self, Function.iterate_zero_apply]
      below := hv
      first := fun j h1 h2 => by
        rw [hback j h2.le]
        exact h.first (n - j) (by omega) (by omega) }

/-- Spec R83 item 2: a walk that comes back to its start has gone round the cycle, so an iterate is the start or was passed over. -/
theorem WalkEnds.iterate_eq_of_below {f : Word → Word} {v : Word} {n : Nat} (h : WalkEnds f v v n) {j : Nat}
    (hj : (f^[j] v).toNat < 0x40000000) : f^[j] v = v := by
  have hperiod : Function.IsPeriodicPt f n v := h.value
  rw [← hperiod.iterate_mod_apply] at hj ⊢
  rcases Nat.eq_zero_or_pos (j % n) with hzero | hpos
  · rw [hzero, Function.iterate_zero_apply]
  · have habove := h.first (j % n) hpos (Nat.mod_lt _ h.atLeastOnce)
    omega

/-! ### What all the walks visit (R83 item 4) -/

/-- A value with an iterate below `N` is visited by the walk from below `N`:
the inverse walk from that iterate, the first of them, passes over the value. -/
theorem exists_walk_through {f g : Word → Word} (hgf : Function.LeftInverse g f) (hfg : Function.LeftInverse f g) {x : Word}
    (hx : ∃ j, (f^[j] x).toNat < 0x40000000) :
    ∃ v w n i, v.toNat < 0x40000000 ∧ WalkEnds f v w n ∧ i ∈ Finset.Icc 1 n ∧ f^[i] v = x := by
  have hy := Nat.find_spec hx
  have hmin : ∀ k < Nat.find hx, ¬ (f^[k] x).toNat < 0x40000000 := fun k hk => Nat.find_min hx hk
  generalize Nat.find hx = j at hy hmin
  obtain ⟨v, n, hinverse⟩ := exists_walkEnds hfg.injective hy
  have hends : WalkEnds f v (f^[j] x) n := hinverse.reverse hfg hy
  have hjn : j < n := by
    by_contra hle
    have hv : v = f^[j - n] x := by
      apply hgf.injective.iterate n
      rw [hends.value, ← Function.iterate_add_apply, Nat.add_sub_of_le (Nat.le_of_not_lt hle)]
    have hone := hends.atLeastOnce
    exact hmin (j - n) (by omega) (hv ▸ hinverse.below)
  refine ⟨v, _, n, n - j, hinverse.below, hends, Finset.mem_Icc.2 ⟨by omega, by omega⟩, hgf.injective.iterate j ?_⟩
  rw [← Function.iterate_add_apply, Nat.add_sub_of_le hjn.le, hends.value]

/-- The step count of `WalkF(v)`. -/
def walkSteps (t : Tables) (v : Word) : Nat := ((walkF t v).map Prod.snd).getD 0

theorem exists_walkEnds_walkSteps (t : Tables) {v : Word} (hv : v.toNat < 0x40000000) :
    ∃ w, WalkEnds (encode32 t) v w (walkSteps t v) := by
  obtain ⟨w, n, hwalk, -, hends⟩ := exists_walkF t hv
  have hn : walkSteps t v = n := by rw [walkSteps, hwalk, Option.map_some, Option.getD_some]
  exact ⟨w, hn ▸ hends⟩

theorem walkSteps_eq {t : Tables} {v w : Word} {n : Nat} (hv : v.toNat < 0x40000000) (h : WalkEnds (encode32 t) v w n) :
    walkSteps t v = n := by
  obtain ⟨_, hends⟩ := exists_walkEnds_walkSteps t hv
  exact (hends.unique h).2

/-- A visit of some walk: the number below `N` that the walk starts from, and how many steps it has taken.
Irreducible, so that Lean never unfolds the list of the `2^30` starts. -/
@[irreducible] def walkVisits (t : Tables) : Finset (Σ _ : Nat, Nat) :=
  (Finset.range 0x40000000).sigma fun v => Finset.Icc 1 (walkSteps t (BitVec.ofNat 32 v))

/-- The value visited. -/
def visited (t : Tables) (p : Σ _ : Nat, Nat) : Word := (encode32 t)^[p.2] (BitVec.ofNat 32 p.1)

theorem mem_walkVisits {t : Tables} {v i : Nat} :
    ⟨v, i⟩ ∈ walkVisits t ↔ v < 0x40000000 ∧ i ∈ Finset.Icc 1 (walkSteps t (BitVec.ofNat 32 v)) := by
  unfold walkVisits
  rw [Finset.mem_sigma, Finset.mem_range]

theorem card_walkVisits (t : Tables) :
    (walkVisits t).card = ∑ v ∈ Finset.range 0x40000000, walkSteps t (BitVec.ofNat 32 v) := by
  unfold walkVisits
  rw [Finset.card_sigma]
  exact Finset.sum_congr rfl fun v _ => by rw [Nat.card_Icc, Nat.add_sub_cancel]

theorem toNat_ofNat_of_lt_N {v : Nat} (hv : v < 0x40000000) : (BitVec.ofNat 32 v).toNat = v := by
  rw [BitVec.toNat_ofNat, Nat.mod_eq_of_lt (by omega)]

/-- Spec R83 item 4: no value is visited twice. -/
theorem visited_injOn (t : Tables) : Set.InjOn (visited t) ↑(walkVisits t) := by
  rintro ⟨v, i⟩ hvisit ⟨v', j⟩ hvisit' hmeet
  obtain ⟨hv, hi⟩ := mem_walkVisits.1 (Finset.mem_coe.1 hvisit)
  obtain ⟨hv', hj⟩ := mem_walkVisits.1 (Finset.mem_coe.1 hvisit')
  have hword := toNat_ofNat_of_lt_N hv
  have hword' := toNat_ofNat_of_lt_N hv'
  obtain ⟨w, hends⟩ := exists_walkEnds_walkSteps t (hword.trans_lt hv)
  obtain ⟨w', hends'⟩ := exists_walkEnds_walkSteps t (hword'.trans_lt hv')
  obtain ⟨rfl, hstart⟩ :=
    hends.visit_unique (encode32_injective t) hends' (hword.trans_lt hv) (hword'.trans_lt hv') hi hj hmeet
  obtain rfl : v = v' := by rw [← hword, ← hword', hstart]
  rfl

/-- Spec R83 item 4: the walks visit every value but those on cycles entirely in `[N, 2^32)`. -/
theorem visited_image (t : Tables) :
    visited t '' walkVisits t = {x : Word | ∀ j, 0x40000000 ≤ ((encode32 t)^[j] x).toNat}ᶜ := by
  ext x
  simp only [Set.mem_compl_iff, Set.mem_ofPred_eq, not_forall, not_le]
  constructor
  · rintro ⟨⟨v, i⟩, hi, rfl⟩
    obtain ⟨hv, hstep⟩ := mem_walkVisits.1 hi
    obtain ⟨w, hends⟩ := exists_walkEnds_walkSteps t ((toNat_ofNat_of_lt_N hv).trans_lt hv)
    refine ⟨walkSteps t (BitVec.ofNat 32 v) - i, ?_⟩
    rw [visited, ← Function.iterate_add_apply, Nat.sub_add_cancel (Finset.mem_Icc.1 hstep).2, hends.value]
    exact hends.below
  · intro hx
    obtain ⟨v, w, n, i, hv, hends, hi, hvisit⟩ := exists_walk_through (decode32_encode32 t) (encode32_decode32 t) hx
    refine ⟨⟨v.toNat, i⟩, mem_walkVisits.2 ?_, ?_⟩
    · rw [BitVec.ofNat_toNat, BitVec.setWidth_eq, walkSteps_eq hv hends]
      exact ⟨hv, hi⟩
    · rw [visited, BitVec.ofNat_toNat, BitVec.setWidth_eq, hvisit]

theorem natCard_word : Nat.card Word = 2 ^ 32 := by
  rw [Nat.card_eq_fintype_card, ← FinEnum.card_eq_fintypeCard, FinEnum.card_bitVec]

/-! ### The two commands, and every command's completion -/

/-- The range check passed (spec R80, R81, R89). -/
theorem ite_inRange_of_lt {α : Type} {v : Word} (hv : v.toNat < 0x40000000) (a b : α) : (if inRange v then a else b) = a :=
  if_pos ((inRange_iff v).2 hv)

/-- The range check failed (spec R80, R81, R89). -/
theorem ite_inRange_of_ge {α : Type} {v : Word} (hv : 0x40000000 ≤ v.toNat) (a b : α) : (if inRange v then a else b) = b :=
  if_neg fun hin => absurd ((inRange_iff v).1 hin) (Nat.not_lt.2 hv)

/-- WALKF and WALKI, with the map that they walk (spec R80, R81). -/
def checkedWalk (f : Word → Word) (s : State) : Host.Outcome State Fault Refusal :=
  .next (s.finish (if inRange s.la0 then walkCompletion (walk f Config.walkFuel s.la0 0) else some (.err .outOfRange 0)))

theorem exec_walkf (len : Nat) (s : State) : exec (.walkf len) s = checkedWalk (encode32 s.tables) s := rfl

theorem exec_walki (len : Nat) (s : State) : exec (.walki len) s = checkedWalk (decode32 s.tables) s := rfl

theorem checkedWalk_of_lt {f : Word → Word} (hf : f.Injective) {s : State} (hv : s.la0.toNat < 0x40000000) :
    ∃ w n, WalkEnds f s.la0 w n ∧ n ≤ 0xC0000001 ∧ checkedWalk f s = .next (s.succeeded w 0 0 (BitVec.ofNat 32 n)) := by
  obtain ⟨w, n, hwalk, hn, hends⟩ := exists_walk hf hv
  refine ⟨w, n, hends, hn, ?_⟩
  rw [checkedWalk, ite_inRange_of_lt hv, hwalk]
  rfl

theorem checkedWalk_of_ge (f : Word → Word) {s : State} (hv : 0x40000000 ≤ s.la0.toNat) :
    checkedWalk f s = .next (s.failed .outOfRange 0) := by
  rw [checkedWalk, ite_inRange_of_ge hv]
  rfl

/-- Spec R90: DEC has one digit for each character it scanned. -/
theorem scanChars_ok_length {a : Alphabet} {cs : List Byte} {i : Nat} {ds : List Digit} (h : scanChars a i cs = .ok ds) :
    ds.length = cs.length := by
  induction cs generalizing i ds with
  | nil => obtain rfl := Except.ok.inj h; rfl
  | cons c cs ih =>
    simp only [scanChars] at h
    split at h
    · exact absurd h (by simp)
    · split at h
      · rename_i ds' hds
        obtain rfl := Except.ok.inj h
        rw [List.length_cons, List.length_cons, ih hds]
      · exact absurd h (by simp)

/-- Spec R87: the value of `n` digits is below `32^n`. -/
theorem valueOf_lt (ds : List Digit) : valueOf ds < 32 ^ ds.length := by
  induction ds with
  | nil => exact Nat.one_pos
  | cons d ds ih =>
    have hd : d.toNat < 32 := d.isLt
    have hcons : valueOf (d :: ds) = valueOf ds * 32 + d.toNat := rfl
    rw [hcons, List.length_cons, Nat.pow_succ]
    omega

/-- Spec R90: DEC's walk starts below `N`. -/
theorem decOperand_lt {s : State} {ds : List Digit}
    (h : scanChars s.tables.alphabet 0 (s.opChars.take Config.strLen) = .ok ds) :
    (BitVec.ofNat 32 (valueOf ds)).toNat < 0x40000000 := by
  have hlen : ds.length = 6 := scanChars_ok_length h
  have hlt := valueOf_lt ds
  rw [hlen] at hlt
  rwa [toNat_ofNat_of_lt_N hlt]

/-- A range check before a walk completes on both paths (spec R80 to R82, R89). -/
theorem exists_completion_of_range_check {v : Word} {o : Option Completion}
    (ho : v.toNat < 0x40000000 → ∃ c, o = some c) : ∃ c, (if inRange v then o else some (.err .outOfRange 0)) = some c := by
  rcases lt_or_ge v.toNat 0x40000000 with hv | hv
  · rw [ite_inRange_of_lt hv]
    exact ho hv
  · exact ⟨_, ite_inRange_of_ge hv _ _⟩

theorem exists_decCompletion (len : Nat) (s : State) : ∃ c, decCompletion len s = some c := by
  unfold decCompletion
  split
  · exact ⟨_, rfl⟩
  · split
    · exact ⟨_, rfl⟩
    · rename_i ds hds
      obtain ⟨w, n, hwalk, -⟩ := exists_walkI s.tables (decOperand_lt hds)
      exact ⟨_, by rw [hwalk]; rfl⟩

/-- Spec R82: no command's walk runs out of fuel, so every command completes. -/
theorem exists_completionOf (i : Instr) (s : State) : ∃ c, completionOf i s = some c := by
  cases i with
  | rfn | rndf | rndi | permf | permi => exact ⟨_, rfl⟩
  | walkf | enc =>
    refine exists_completion_of_range_check fun hv => ?_
    obtain ⟨w, n, hwalk, -⟩ := exists_walkF s.tables hv
    exact ⟨_, by rw [hwalk]; rfl⟩
  | walki =>
    refine exists_completion_of_range_check fun hv => ?_
    obtain ⟨w, n, hwalk, -⟩ := exists_walkI s.tables hv
    exact ⟨_, by rw [hwalk]; rfl⟩
  | dec len => exact exists_decCompletion len s

/-- Spec R35, R60: the running command completes, legal or not. -/
theorem runCommand_completes (s : State) : ∃ c, runCommand s = .next (s.complete c) := by
  cases hd : decode s.cmd with
  | ok i =>
    obtain ⟨c, hc⟩ := exists_completionOf i s
    exact ⟨c, by rw [runCommand_of_decode hd, exec_eq_finish, hc, finish_some]⟩
  | error e => exact ⟨.err .illegalCommand 0, by simp only [runCommand, hd]; rfl⟩

/-- Spec R35, R123: a step in which a busy engine has the turn, by the schedule or at its end, is a completion. -/
theorem step_completes {s : State} (hr : s.rst = false) (hb : s.eng = .busy)
    (hturn : s.schedule = [] ∨ ∃ es, s.schedule = .engineTurn :: es) :
    ∃ es c, step s = .next (State.complete c { s with schedule := es }) := by
  rcases hturn with hnil | ⟨es, hcons⟩
  · obtain ⟨c, hc⟩ := runCommand_completes s
    exact ⟨s.schedule, c, by rw [step_nil hnil, engineTurn_busy hr hb, hc]⟩
  · obtain ⟨c, hc⟩ := runCommand_completes { s with schedule := es }
    refine ⟨es, c, ?_⟩
    rw [step_cons hcons, ← hc]
    exact engineTurn_busy (s := { s with schedule := es }) hr hb

end Sys2Proof.Machine

namespace Sys2Proof.Proofs

open Sys2Proof Sys2Proof.Machine

/-- Settles O44: the walk comes back to its start at the latest, and what it passes over is distinct and not below `N`. -/
theorem walksFromBelowNEnd : Obligations.WalksFromBelowNEnd :=
  fun t _ hv => ⟨exists_walkF t hv, exists_walkI t hv⟩

/-- Settles O45: the range check, and then a walk of an injective map, which ends. -/
theorem walkfGivesFirstValueInRange : Obligations.WalkfGivesFirstValueInRange := by
  intro len s
  rw [exec_walkf]
  exact ⟨checkedWalk_of_lt (encode32_injective s.tables), checkedWalk_of_ge _⟩

/-- Settles O46: as for WALKF; the inverse permutation is injective too. -/
theorem walkiGivesFirstValueInRange : Obligations.WalkiGivesFirstValueInRange := by
  intro len s
  rw [exec_walki]
  exact ⟨checkedWalk_of_lt (decode32_injective s.tables), checkedWalk_of_ge _⟩

/-- Settles O47: each walk is the other one taken back. -/
theorem walksInvertEachOther : Obligations.WalksInvertEachOther := by
  intro t v w n hv
  refine ⟨⟨fun h => ⟨h.reverse (decode32_encode32 t) hv, h.below⟩, fun ⟨h, hw⟩ => h.reverse (encode32_decode32 t) hw⟩, ?_, ?_⟩
  · intro hF
    have h := (walkF_eq_some_iff hv).1 hF
    exact (walkI_eq_some_iff h.below).2 (h.reverse (decode32_encode32 t) hv)
  · intro hI
    have h := (walkI_eq_some_iff hv).1 hI
    exact (walkF_eq_some_iff h.below).2 (h.reverse (encode32_decode32 t) hv)

/-- Settles O48: the inverse walk from a value gives the one start that the forward walk takes to it. -/
theorem walkPermutesTheRange : Obligations.WalkPermutesTheRange := by
  intro t
  refine ⟨fun v hv => ?_, fun v v' w n n' hv hv' h h' => ?_, fun w hw => ?_⟩
  · obtain ⟨w, n, hwalk, -, hends⟩ := exists_walkF t hv
    exact ⟨w, n, hends.below, hwalk⟩
  · have hI := (walksInvertEachOther t v w n hv).2.1 h
    have hI' := (walksInvertEachOther t v' w n' hv').2.1 h'
    exact congrArg Prod.fst (Option.some.inj (hI.symm.trans hI'))
  · obtain ⟨v, n, hwalk, -, hends⟩ := exists_walkI t hw
    exact ⟨v, n, hends.below, (walksInvertEachOther t w v n hw).2.2 hwalk⟩

/-- Settles O49: a walk that comes back to its start has passed over the rest of the cycle; and a walk ends at an iterate below `N`. -/
theorem walkFixesLoneValueOfCycle : Obligations.WalkFixesLoneValueOfCycle := by
  intro t v hv
  constructor
  · rintro ⟨n, hwalk⟩ j hj
    exact ((walkF_eq_some_iff hv).1 hwalk).iterate_eq_of_below hj
  · intro hlone
    obtain ⟨w, n, hwalk, -, hends⟩ := exists_walkF t hv
    obtain rfl : w = v := by
      rw [← hends.value]
      exact hlone n (by rw [hends.value]; exact hends.below)
    exact ⟨n, hwalk⟩

/-- Settles O50: the visits of all walks are counted by their step counts, and they reach each value outside the cycles of `[N, 2^32)` once. -/
theorem walkStepsSumToVisitedValues : Obligations.WalkStepsSumToVisitedValues := by
  intro t
  have hsum : ∑ v ∈ Finset.range 0x40000000, ((walkF t (BitVec.ofNat 32 v)).map Prod.snd).getD 0
      = {x : Word | ∀ j, 0x40000000 ≤ ((encode32 t)^[j] x).toNat}ᶜ.ncard := by
    rw [← visited_image, (visited_injOn t).ncard_image, Set.ncard_coe_finset, card_walkVisits]
    rfl
  rw [hsum, add_comm, Set.ncard_add_ncard_compl, natCard_word]

/-- Settles O9: the engine's turn is a completion step, which ends the command and leaves `CMD`, `OVR` and `IE` alone. -/
theorem everyAcceptedCommandCompletes : Obligations.EveryAcceptedCommandCompletes := by
  intro s hr hb hturn
  obtain ⟨es, c, hstep⟩ := step_completes hr hb hturn
  exact ⟨_, hstep, rfl, rfl, rfl, rfl, rfl⟩

end Sys2Proof.Proofs
end

section
/-! SUPPORT. 43_radix: the alphabet and its inverse (R86), digits and the values they pack (R84, R87), the characters in their words (R88), and what ENC and DEC complete with (R89, R90). -/

namespace Sys2Proof.Machine

/-! ### The alphabet (R86) -/

/-- Spec R6: the entries of the alphabet are pairwise distinct. -/
theorem symbolOf_injective (a : Alphabet) : (symbolOf a).Injective := by
  intro d d' h
  exact BitVec.eq_of_toNat_eq ((List.Nodup.getElem_inj_iff a.distinct).1 h)

/-- `placeOf` is the library's first index, counted from `i`. -/
theorem placeOf_eq_idxOf? (c : Byte) (i : Nat) (bs : List Byte) : placeOf c i bs = (bs.idxOf? c).map (i + ·) := by
  induction bs generalizing i with
  | nil => rfl
  | cons b bs ih =>
    rw [placeOf, List.idxOf?_cons]
    by_cases hb : b = c
    · rw [if_pos hb, if_pos (beq_iff_eq.2 hb)]
      rfl
    · rw [if_neg hb, if_neg fun h => hb (beq_iff_eq.1 h), ih, Option.map_map]
      congr 1
      funext j
      exact Nat.add_right_comm i 1 j

theorem indexOf_eq_idxOf? (a : Alphabet) (c : Byte) : indexOf a c = (a.symbols.idxOf? c).map (BitVec.ofNat 5) := by
  rw [indexOf, placeOf_eq_idxOf?, Option.map_map]
  congr 1
  funext j
  exact congrArg (BitVec.ofNat 5) (Nat.zero_add j)

theorem symbolOf_of_indexOf {a : Alphabet} {c : Byte} {d : Digit} (h : indexOf a c = some d) : symbolOf a d = c := by
  rw [indexOf_eq_idxOf?] at h
  obtain ⟨j, hj, rfl⟩ := Option.map_eq_some_iff.1 h
  obtain ⟨hlt, hsymbol, -⟩ := List.idxOf?_eq_some_iff.1 hj
  have hnat : (BitVec.ofNat 5 j).toNat = j := Nat.mod_eq_of_lt (hlt.trans_eq a.size)
  simp only [symbolOf, hnat, hsymbol]

@[simp] theorem indexOf_symbolOf (a : Alphabet) (d : Digit) : indexOf a (symbolOf a d) = some d := by
  cases h : indexOf a (symbolOf a d) with
  | some d' => rw [symbolOf_injective a (symbolOf_of_indexOf h)]
  | none =>
    rw [indexOf_eq_idxOf?, Option.map_eq_none_iff, List.idxOf?_eq_none_iff] at h
    exact absurd (List.getElem_mem _) h

theorem indexOf_eq_some_iff {a : Alphabet} {c : Byte} {d : Digit} : indexOf a c = some d ↔ symbolOf a d = c :=
  ⟨symbolOf_of_indexOf, fun h => h ▸ indexOf_symbolOf a d⟩

theorem indexOf_eq_none_iff {a : Alphabet} {c : Byte} : indexOf a c = none ↔ ∀ d, symbolOf a d ≠ c := by
  simp only [Option.eq_none_iff_forall_ne_some, ne_eq, indexOf_eq_some_iff]

/-! ### Digits and values (R84, R87) -/

/-- Spec R84: where the value is 0 already, the zero digits left over are what the division would give too. -/
theorem digitsFrom_succ (n v : Nat) : digitsFrom (n + 1) v = BitVec.ofNat 5 v :: digitsFrom n (v / 32) := by
  have hzero : ∀ n, digitsFrom n 0 = List.replicate n 0 := fun n => by cases n <;> rfl
  rw [digitsFrom]
  split
  · rename_i hv
    rw [hv, Nat.zero_div, hzero]
    rfl
  · have hmod : BitVec.ofNat 5 (v % 32) = BitVec.ofNat 5 v := BitVec.eq_of_toNat_eq (Nat.mod_mod v 32)
    rw [Config.radix, hmod]

theorem valueOf_cons (d : Digit) (ds : List Digit) : valueOf (d :: ds) = valueOf ds * 32 + d.toNat := rfl

/-- Spec R87: no value is lost, as long as there are enough positions. -/
theorem valueOf_digitsFrom {n v : Nat} (h : v < 32 ^ n) : valueOf (digitsFrom n v) = v := by
  induction n generalizing v with
  | zero => exact (Nat.lt_one_iff.1 h).symm
  | succ n ih =>
    rw [Nat.pow_succ] at h
    rw [digitsFrom_succ, valueOf_cons, ih (Nat.div_lt_of_lt_mul (by omega)), BitVec.toNat_ofNat]
    omega

theorem digitsFrom_valueOf (ds : List Digit) : digitsFrom ds.length (valueOf ds) = ds := by
  induction ds with
  | nil => rfl
  | cons d ds ih =>
    have hd : d.toNat < 32 := d.isLt
    have hhead : BitVec.ofNat 5 (valueOf ds * 32 + d.toNat) = d := by
      apply BitVec.eq_of_toNat_eq
      rw [BitVec.toNat_ofNat]
      omega
    have htail : (valueOf ds * 32 + d.toNat) / 32 = valueOf ds := by omega
    rw [List.length_cons, digitsFrom_succ, valueOf_cons, hhead, htail, ih]

theorem valueOf_digits {v : Word} (hv : v.toNat < 0x40000000) : valueOf (digits v) = v.toNat :=
  valueOf_digitsFrom hv

theorem digitsFrom_eq_ofFn (n v : Nat) : digitsFrom n v = List.ofFn fun i : Fin n => BitVec.ofNat 5 (v / 32 ^ i.val) := by
  induction n generalizing v with
  | zero => rfl
  | succ n ih =>
    rw [digitsFrom_succ, ih, List.ofFn_succ]
    simp only [Fin.val_zero, pow_zero, Nat.div_one, Fin.val_succ, Nat.pow_succ', Nat.div_div_eq_div_mul]

/-- The six 5-bit fields `v[5i+4:5i]` of a word, lowest first (spec R84). -/
def fieldsOf (v : Word) (i : Fin 6) : Digit := v.extractLsb' (5 * i.val) 5

/-- Spec R84: dividing by `32^i` shifts by `5i` bits. -/
theorem digits_eq_fields (v : Word) : digits v = List.ofFn (fieldsOf v) := by
  rw [digits, digitsFrom_eq_ofFn]
  congr 1
  funext i
  show BitVec.ofNat 5 (v.toNat / (2 ^ 5) ^ i.val) = BitVec.ofNat 5 (v.toNat >>> (5 * i.val))
  rw [Nat.shiftRight_eq_div_pow, Nat.pow_mul]

/-- Spec R87: the digits stand in the word as its fields; each is found by dropping the fields below it. -/
@[simp] theorem fieldsOf_packDigits (ds : Fin 6 → Digit) : fieldsOf (packDigits ds) = ds := by
  funext i
  fin_cases i <;> simp (disch := decide) only [fieldsOf, packDigits, BitVec.extractLsb'_append_eq_of_le] <;>
    exact BitVec.extractLsb'_append_eq_right

/-- Spec R87: two zero bits stand above the digits. -/
theorem packDigits_lt (ds : Fin 6 → Digit) : (packDigits ds).toNat < 0x40000000 := by
  rw [← Config.N, lt_N_iff_topBits_zero]
  simp (disch := decide) only [packDigits, BitVec.extractLsb'_append_eq_of_le]
  rfl

/-! ### Strings and their words (R85, R88) -/

/-- Spec R85: the characters are the symbols of the fields, six of them. -/
theorem chars_eq_ofFn (a : Alphabet) (v : Word) : chars a v = List.ofFn fun i => symbolOf a (fieldsOf v i) := by
  rw [chars, digits_eq_fields, List.map_ofFn]
  rfl

theorem length_chars (a : Alphabet) (v : Word) : (chars a v).length = 6 := by
  rw [chars_eq_ofFn, List.length_ofFn]

/-- The six characters that DEC examines (spec R90). -/
def State.examined (s : State) : List Byte := s.opChars.take Config.strLen

theorem examined_getElem? (s : State) {i : Nat} (hi : i < 6) : s.examined[i]? = s.opChars[i]? :=
  List.getElem?_take_of_lt hi

theorem examined_of_charsAre {s : State} {ds : Fin 6 → Digit} (h : charsAre s ds) :
    s.examined = chars s.tables.alphabet (packDigits ds) := by
  rw [chars_eq_ofFn, fieldsOf_packDigits]
  refine List.ext_getElem (List.length_ofFn).symm fun i hi _ => ?_
  have hchar := h ⟨i, hi⟩
  rw [← examined_getElem? s hi] at hchar
  rw [List.getElem_ofFn]
  exact (List.getElem_eq_iff hi).2 hchar

theorem packBytes_byteOf (v : Word) : packBytes (byteOf v 3) (byteOf v 2) (byteOf v 1) (byteOf v 0) = v := by
  simp only [packBytes, byteOf, BitVec.extractLsb'_append_extractLsb'_eq_extractLsb']
  exact BitVec.extractLsb'_eq_self

theorem byteOf_packBytes (b3 b2 b1 b0 : Byte) :
    byteOf (packBytes b3 b2 b1 b0) 0 = b0 ∧ byteOf (packBytes b3 b2 b1 b0) 1 = b1 ∧
    byteOf (packBytes b3 b2 b1 b0) 2 = b2 ∧ byteOf (packBytes b3 b2 b1 b0) 3 = b3 := by
  simp (disch := decide) only [byteOf, packBytes, BitVec.extractLsb'_append_eq_of_le]
  exact ⟨BitVec.extractLsb'_append_eq_right, BitVec.extractLsb'_append_eq_right, BitVec.extractLsb'_append_eq_right,
    BitVec.extractLsb'_eq_self⟩

theorem packBytes_zero_zero (b1 b0 : Byte) : packBytes 0 0 b1 b0 = (0 : Half) ++ (b1 ++ b0) :=
  BitVec.append_assoc (x₁ := (0 : Half))

/-- Spec R88, output and then input: DEC's six characters are the ones that were packed for `CHR_OUT0` and `CHR_OUT1`. -/
theorem examined_of_chrOut {s : State} {c : List Byte} (hlen : c.length = 6) (h0 : s.lc0 = chrOut0Of c)
    (h1 : s.lc1 = chrOut1Of c) : s.examined = c := by
  match c, hlen with
  | [c0, c1, c2, c3, c4, c5], _ =>
    obtain ⟨b0, b1, b2, b3⟩ := byteOf_packBytes c3 c2 c1 c0
    obtain ⟨b4, b5, -⟩ := byteOf_packBytes 0 0 c5 c4
    show [byteOf s.lc0 0, byteOf s.lc0 1, byteOf s.lc0 2, byteOf s.lc0 3, byteOf s.lc1 0, byteOf s.lc1 1] = _
    rw [h0, h1]
    simp only [chrOut0Of, chrOut1Of, List.getD_cons_zero, List.getD_cons_succ, b0, b1, b2, b3, b4, b5]

/-- Spec R88, input and then output. -/
theorem chrOut0Of_examined (s : State) : chrOut0Of s.examined = s.lc0 := packBytes_byteOf s.lc0

theorem chrOut1Of_examined (s : State) : chrOut1Of s.examined = (0 : Half) ++ s.lc1.extractLsb' 0 16 :=
  (packBytes_zero_zero _ _).trans
    (congrArg ((0 : Half) ++ ·) (BitVec.extractLsb'_append_extractLsb'_eq_extractLsb' rfl))

/-! ### DEC's scan (R90) -/

theorem scanChars_map_symbolOf (a : Alphabet) (i : Nat) (ds : List Digit) :
    scanChars a i (ds.map (symbolOf a)) = .ok ds := by
  induction ds generalizing i with
  | nil => rfl
  | cons d ds ih => simp only [List.map_cons, scanChars, indexOf_symbolOf, ih]

/-- Spec R90, R94: the scan stops at the lowest position whose character is outside the alphabet. -/
theorem scanChars_error {a : Alphabet} {cs : List Byte} {i k : Nat} {c : Byte} (hc : cs[i]? = some c)
    (hbad : ∀ d, symbolOf a d ≠ c) (hgood : ∀ j < i, ∃ d, cs[j]? = some (symbolOf a d)) :
    scanChars a k cs = .error (k + i) := by
  induction cs generalizing i k with
  | nil => exact absurd hc (by simp)
  | cons b cs ih =>
    cases i with
    | zero =>
      obtain rfl := Option.some.inj hc
      simp only [scanChars, indexOf_eq_none_iff.2 hbad, Nat.add_zero]
    | succ i =>
      obtain ⟨d, hd⟩ := hgood 0 (Nat.succ_pos i)
      obtain rfl := Option.some.inj hd
      have hrest := ih (k := k + 1) hc fun j hj => hgood (j + 1) (Nat.succ_lt_succ hj)
      simp only [scanChars, indexOf_symbolOf, hrest, Nat.add_assoc, Nat.add_comm 1 i]

/-! ### The two commands (R89, R90) -/

theorem exec_enc_of_ge (len : Nat) {s : State} (hid : 0x40000000 ≤ s.la0.toNat) :
    exec (.enc len) s = .next (s.failed .outOfRange 0) := by
  rw [exec_eq_finish, completionOf, State.opValue, ite_inRange_of_ge hid]
  rfl

/-- Spec R89: below `N`, ENC completes with the walk's value, its characters and the walk's length. -/
theorem exec_enc_of_walkEnds (len : Nat) {s : State} {v : Word} {n : Nat} (hid : s.la0.toNat < 0x40000000)
    (h : WalkEnds (encode32 s.tables) s.la0 v n) :
    exec (.enc len) s = .next (s.succeeded v (chrOut0Of (chars s.tables.alphabet v)) (chrOut1Of (chars s.tables.alphabet v))
      (BitVec.ofNat 32 n)) := by
  rw [exec_eq_finish, completionOf, State.opValue, ite_inRange_of_lt hid, (walkF_eq_some_iff hid).2 h]
  rfl

theorem exec_dec_of_completion {len : Nat} {s : State} {c : Completion} (h : decCompletion len s = some c) :
    exec (.dec len) s = .next (s.complete c) := by
  rw [exec_eq_finish, completionOf, h, finish_some]

/-- Spec R90, R94: the length is looked at before any character. -/
theorem exec_dec_of_len_ne {len : Nat} (h : len ≠ 6) (s : State) :
    exec (.dec len) s = .next (s.failed .invalidLength 0) :=
  exec_dec_of_completion (if_pos h)

theorem exec_dec_of_scan_error {s : State} {i : Nat} (h : scanChars s.tables.alphabet 0 s.examined = .error i) :
    exec (.dec 6) s = .next (s.failed .invalidCharacter (BitVec.ofNat 3 i)) := by
  have hcompletion : decCompletion 6 s = some (.err .invalidCharacter (BitVec.ofNat 3 i)) := by
    rw [decCompletion, if_neg (by decide), ← State.examined, h]
  exact exec_dec_of_completion hcompletion

/-- Spec R90: DEC of the characters of a value below `N` completes with the inverse walk from it. -/
theorem exec_dec_of_chars {s : State} {v w : Word} {n : Nat} (hchars : s.examined = chars s.tables.alphabet v)
    (hv : v.toNat < 0x40000000) (h : WalkEnds (decode32 s.tables) v w n) :
    exec (.dec 6) s = .next (s.succeeded w 0 0 (BitVec.ofNat 32 n)) := by
  have hscan : scanChars s.tables.alphabet 0 s.examined = .ok (digits v) := by
    rw [hchars]
    exact scanChars_map_symbolOf _ _ _
  have hvalue : BitVec.ofNat 32 (valueOf (digits v)) = v := by
    rw [valueOf_digits hv, BitVec.ofNat_toNat, BitVec.setWidth_eq]
  have hcompletion : decCompletion 6 s = walkCompletion (walkI s.tables v) := by
    rw [decCompletion, if_neg (by decide), ← State.examined, hscan]
    simp only [hvalue]
  rw [(walkI_eq_some_iff hv).2 h] at hcompletion
  exact exec_dec_of_completion hcompletion

end Sys2Proof.Machine

namespace Sys2Proof.Proofs

open Sys2Proof Sys2Proof.Machine

/-- Settles O51: dividing by 32 shifts by one field, and multiplying by 32 takes that back. -/
theorem digitsAreFiveBitFields : Obligations.DigitsAreFiveBitFields := by
  refine ⟨fun v hv => ⟨digits_eq_fields v, valueOf_digits hv⟩, fun ds hlen => ?_⟩
  have hlt : valueOf ds < 0x40000000 := by
    have h := valueOf_lt ds
    rwa [hlen] at h
  refine ⟨hlt, ?_⟩
  rw [digits, toNat_ofNat_of_lt_N hlt, Config.strLen, ← hlen, digitsFrom_valueOf]

/-- Settles O52: the entries are pairwise distinct, so the first place of a byte is its only one. -/
theorem indexInvertsAlphabet : Obligations.IndexInvertsAlphabet :=
  fun a _ => ⟨fun _ => indexOf_eq_some_iff, indexOf_eq_none_iff, fun _ _ h => symbolOf_injective a h⟩

/-- Settles O53: the range check, then a walk that ends, whose value's characters are the symbols of its fields. -/
theorem encGivesWalkAndSymbols : Obligations.EncGivesWalkAndSymbols := by
  intro len s
  refine ⟨fun hid => ?_, exec_enc_of_ge len⟩
  obtain ⟨v, n, -, hn, hends⟩ := exists_walkF s.tables hid
  refine ⟨v, n, hends, hn, ?_⟩
  rw [exec_enc_of_walkEnds len hid hends, chars_eq_ofFn]
  rfl

/-- Settles O54: the characters are those of the packed digits, a value below `N`, so the inverse walk from it ends. -/
theorem decGivesInverseWalkOfValue : Obligations.DecGivesInverseWalkOfValue := by
  intro s ds hchars
  obtain ⟨w, n, -, hn, hends⟩ := exists_walkI s.tables (packDigits_lt ds)
  exact ⟨w, n, hends, hn, exec_dec_of_chars (examined_of_charsAre hchars) (packDigits_lt ds) hends⟩

/-- Settles O55: the length is looked at first, and the scan stops at the lowest bad position. -/
theorem decReportsLengthThenLowestCharacter : Obligations.DecReportsLengthThenLowestCharacter := by
  refine fun s => ⟨fun len hlen => exec_dec_of_len_ne hlen s, fun i c hi hc hbad hgood => ?_⟩
  have hscan : scanChars s.tables.alphabet 0 s.examined = .error (0 + i) :=
    scanChars_error ((examined_getElem? s hi).trans hc) hbad fun j hj => by
      rw [examined_getElem? s (hj.trans hi)]
      exact hgood j hj
  rw [Nat.zero_add] at hscan
  exact exec_dec_of_scan_error hscan

/-- Settles O56: DEC examines the characters that ENC packed, and its inverse walk is ENC's walk taken back. -/
theorem decOfEncGivesIdBack : Obligations.DecOfEncGivesIdBack := by
  intro len s hid
  obtain ⟨v, n, -, -, hends⟩ := exists_walkF s.tables hid
  refine ⟨_, exec_enc_of_walkEnds len hid hends, fun u htables h0 h1 => ?_⟩
  have hchars : u.examined = chars u.tables.alphabet v := by
    rw [htables]
    exact examined_of_chrOut (length_chars _ v) h0 h1
  have hback : WalkEnds (decode32 u.tables) v s.la0 n := by
    rw [htables]
    exact hends.reverse (decode32_encode32 s.tables) hid
  exact ⟨_, exec_dec_of_chars hchars hends.below hback, rfl, rfl, rfl, rfl⟩

/-- Settles O57: ENC's walk is DEC's inverse walk taken back, so ENC packs the characters that DEC examined. -/
theorem encOfDecGivesStringBack : Obligations.EncOfDecGivesStringBack := by
  intro len s ds hds
  have hv := packDigits_lt ds
  have hchars := examined_of_charsAre hds
  obtain ⟨w, n, -, -, hends⟩ := exists_walkI s.tables hv
  refine ⟨_, exec_dec_of_chars hchars hv hends, hends.below, fun u htables (hla0 : u.la0 = w) => ?_⟩
  have hback : WalkEnds (encode32 u.tables) u.la0 (packDigits ds) n := by
    rw [htables, hla0]
    exact hends.reverse (encode32_decode32 s.tables) hv
  have hid : u.la0.toNat < 0x40000000 := hla0 ▸ hends.below
  refine ⟨_, exec_enc_of_walkEnds len hid hback, ?_, ?_, rfl⟩
  · show chrOut0Of (chars u.tables.alphabet (packDigits ds)) = s.lc0
    rw [htables, ← hchars, chrOut0Of_examined]
  · show chrOut1Of (chars u.tables.alphabet (packDigits ds)) = (0 : Half) ++ s.lc1.extractLsb' 0 16
    rw [htables, ← hchars, chrOut1Of_examined]

end Sys2Proof.Proofs
end

section
/-! SUPPORT. 60_exceptions: the interrupt output in the words software reads (R101). -/

namespace Sys2Proof.Machine

/-- Spec R19: bit 0 of `CTRL` is `IE`. -/
theorem ctrlWord_ie (s : State) : s.ctrlWord.getLsbD 0 = s.ie := by
  rw [ctrlWord_eq]
  cases s.ie <;> rfl

end Sys2Proof.Machine

namespace Sys2Proof.Proofs

open Sys2Proof Sys2Proof.Machine

/-- Settles O23: bit 0 of `CTRL` is `IE` and bit 1 of `STATUS` is `DONE`, the two fields `irq` joins. -/
theorem irqIsEnableAndDone : Obligations.IrqIsEnableAndDone := by
  intro s
  obtain ⟨-, hdone, -, -⟩ := statusWord_flags s
  rw [ctrlWord_ie, hdone, State.irq]

end Sys2Proof.Proofs
end

section
/-! SUPPORT. 70_reset_and_hazards: reset at run time (R110 to R112), back-to-back commands (R118), what a running command depends on (R119, R126), and operand registers read back (R122). -/

namespace Sys2Proof.Machine

/-! ### Reset at run time -/

/-- Spec R112: the engine takes no step while `rst` is asserted. -/
theorem engineTurn_inReset {s : State} (hr : s.rst = true) : engineTurn s = .next s := by
  simp [engineTurn, hr]

theorem step_engineTurn_inReset {s : State} {es : List Event} (hr : s.rst = true) (hes : s.schedule = .engineTurn :: es) :
    step s = .next { s with schedule := es } := by
  rw [step_cons hes]
  exact engineTurn_inReset (s := { s with schedule := es }) hr

theorem step_rstAssert {s : State} {es : List Event} (hes : s.schedule = .rstAssert :: es) :
    step s = .next (State.assertReset { s with schedule := es }) :=
  step_cons hes

theorem step_rstDeassert {s : State} {es : List Event} (hes : s.schedule = .rstDeassert :: es) :
    step s = .next (State.deassertReset { s with schedule := es }) :=
  step_cons hes

/-! ### Operand registers -/

/-- The registers that an accepted command latches (spec R33). -/
def operandRegs : List Reg := [.arg0, .arg1, .chrIn0, .chrIn1]

/-- The offsets of the operand registers (spec R16). -/
theorem operandReg_of_offset_mem : ∀ off ∈ [(0x10 : Offset), 0x14, 0x18, 0x1C], ∃ r ∈ operandRegs, off = r.offset := by
  decide

theorem isResult_of_operand : ∀ r ∈ operandRegs, r.isResult = false := by decide

theorem regValue_answered (p : Reply) (s : State) (r : Reg) : (s.answered p).regValue r = s.regValue r := by
  cases r <;> rfl

theorem regValue_writeReg_operand {r : Reg} (hr : r ∈ operandRegs) (v : Word) (s : State) :
    (s.writeReg r v).regValue r = v := by
  cases r with
  | arg0 | arg1 | chrIn0 | chrIn1 => rfl
  | _ => exact absurd hr (by decide)

/-- A completion writes no operand register, so it may come before or after a write of one. -/
theorem complete_writeReg_operand {r : Reg} (hr : r ∈ operandRegs) (v : Word) (c : Completion) (s : State) :
    (s.writeReg r v).complete c = (s.complete c).writeReg r v := by
  cases r with
  | arg0 | arg1 | chrIn0 | chrIn1 => rfl
  | _ => exact absurd hr (by decide)

/-! ### What a running command depends on -/

/-- Two states run the same command: the word, the latch and the tables agree (spec R126). -/
structure SameCommand (s u : State) : Prop where
  cmd : s.cmd = u.cmd
  la0 : s.la0 = u.la0
  la1 : s.la1 = u.la1
  lc0 : s.lc0 = u.lc0
  lc1 : s.lc1 = u.lc1
  tables : s.tables = u.tables

/-- Every operand of a command comes from the latch (spec R58), and every parameter from the tables. -/
theorem SameCommand.completionOf_eq {s u : State} (h : SameCommand s u) (i : Instr) : completionOf i s = completionOf i u := by
  cases i with
  | rfn | rndf | rndi =>
    simp only [completionOf, State.opX, State.opK, State.opL, State.opR, h.la0, h.la1, h.tables]
  | permf | permi | walkf | walki | enc =>
    have hvalue : s.opValue = u.opValue := h.la0
    simp only [completionOf]
    rw [hvalue, h.tables]
  | dec => simp only [completionOf, decCompletion, State.opChars, h.lc0, h.lc1, h.tables]

/-- Spec R126: the same command completes with the same results, whatever else the two states hold. -/
theorem SameCommand.runCommand_completes {s u : State} (h : SameCommand s u) :
    ∃ c, runCommand s = .next (s.complete c) ∧ runCommand u = .next (u.complete c) := by
  cases hd : decode s.cmd with
  | ok i =>
    obtain ⟨c, hc⟩ := exists_completionOf i s
    have hcu : completionOf i u = some c := (h.completionOf_eq i).symm.trans hc
    have hdu : decode u.cmd = .ok i := h.cmd ▸ hd
    exact ⟨c, by rw [runCommand_of_decode hd, exec_eq_finish, hc, finish_some],
      by rw [runCommand_of_decode hdu, exec_eq_finish, hcu, finish_some]⟩
  | error e =>
    have hill : IllegalWord s.cmd := (exists_decode_eq_error_iff s.cmd).1 ⟨e, hd⟩
    exact ⟨.err .illegalCommand 0, runCommand_of_illegalWord hill, runCommand_of_illegalWord (h.cmd ▸ hill)⟩

/-- Spec R33: a write to an operand register leaves the word, the latch and the tables alone. -/
theorem sameCommand_writeReg_operand {r : Reg} (hr : r ∈ operandRegs) (v : Word) (s : State) :
    SameCommand s (s.writeReg r v) := by
  cases r with
  | arg0 | arg1 | chrIn0 | chrIn1 => exact ⟨rfl, rfl, rfl, rfl, rfl, rfl⟩
  | _ => exact absurd hr (by decide)

/-! ### Command writes and the engine's turn as steps -/

/-- Spec R34: a bus master's own command write while idle is accepted. -/
theorem step_command_idle {s : State} {w : Word} {es : List Event} (hr : s.rst = false) (hi : s.eng = .idle)
    (hes : s.schedule = .access (memWrite s.tables 0x08 w) :: es) :
    step s = .next ((State.accept w { s with schedule := es }).answered .done) := by
  rw [step_memWrite (r := .cmd) hr hes, ← requestCommand_idle (s := { s with schedule := es }) hi]
  rfl

/-- Spec R34: a bus master's own command write while busy is dropped. -/
theorem step_command_busy {s : State} {w : Word} {es : List Event} (hr : s.rst = false) (hb : s.eng = .busy)
    (hes : s.schedule = .access (memWrite s.tables 0x08 w) :: es) :
    step s = .next ((State.overrun { s with schedule := es }).answered .done) := by
  rw [step_memWrite (r := .cmd) hr hes, ← requestCommand_busy (s := { s with schedule := es }) hb w]
  rfl

/-- Spec R35: the busy engine's turn on the schedule is a completion, and the rest of the schedule stays. -/
theorem step_engineTurn_completes {s : State} {es : List Event} (hr : s.rst = false) (hb : s.eng = .busy)
    (hes : s.schedule = .engineTurn :: es) : ∃ c, step s = .next (State.complete c { s with schedule := es }) := by
  obtain ⟨c, hc⟩ := runCommand_completes { s with schedule := es }
  exact ⟨c, by rw [step_cons hes, ← hc]; exact engineTurn_busy (s := { s with schedule := es }) hr hb⟩

/-- Spec R34, R35: a command write while idle and then the engine's turn accept and complete the word. -/
theorem steps_command_completed {s : State} {w : Word} {es : List Event} (hr : s.rst = false) (hi : s.eng = .idle)
    (hes : s.schedule = .access (memWrite s.tables 0x08 w) :: .engineTurn :: es) :
    ∃ u c, step s = .next u ∧
      step u = .next (State.complete c ((State.accept w { s with schedule := es }).answered .done)) := by
  obtain ⟨c, hc⟩ := step_engineTurn_completes (es := es)
    (s := (State.accept w { s with schedule := .engineTurn :: es }).answered .done) hr rfl rfl
  exact ⟨_, c, step_command_idle hr hi hes, hc⟩

/-- Spec R34: of two command writes in a row the second is dropped. -/
theorem steps_command_dropped {s : State} {w v : Word} {es : List Event} (hr : s.rst = false) (hi : s.eng = .idle)
    (hes : s.schedule = .access (memWrite s.tables 0x08 w) :: .access (memWrite s.tables 0x08 v) :: es) :
    ∃ u, step s = .next u ∧
      step u = .next (((State.accept w { s with schedule := es }).answered .done).overrun.answered .done) :=
  ⟨_, step_command_idle hr hi hes, step_command_busy (w := v) (es := es) hr rfl rfl⟩

end Sys2Proof.Machine

namespace Sys2Proof.Proofs

open Sys2Proof Sys2Proof.Machine

/-- Settles O14: the write puts `v` into the register, and a read of an operand register is defined, busy or not. -/
theorem operandReadsBackOnNextAccess : Obligations.OperandReadsBackOnNextAccess := by
  intro s v off es hoff hw
  obtain ⟨r, hr, rfl⟩ := operandReg_of_offset_mem off hoff
  refine ⟨_, writeNext_reg hw, fun fs hread => ⟨_, readNext_defined (.inr (isResult_of_operand r hr)) hread, ?_⟩⟩
  rw [regValue_answered, regValue_writeReg_operand hr]

/-- Settles O25: the reset values are taken at once, the engine's turn under `rst` does nothing, and then `rst` goes down. -/
theorem resetAbandonsCommandAndClearsRegisters : Obligations.ResetAbandonsCommandAndClearsRegisters := by
  intro s es hes
  exact ⟨_, _, _, step_rstAssert hes, rfl, step_engineTurn_inReset rfl rfl, rfl, step_rstDeassert rfl,
    _, _, _, _, _, rfl, rfl⟩

/-- Settles O32: both states complete with the one completion that the word, the latch and the tables give. -/
theorem resultsDependOnWordLatchAndTables : Obligations.ResultsDependOnWordLatchAndTables := by
  intro s u hcmd h0 h1 hc0 hc1 htables
  obtain ⟨c, hs, hu⟩ := SameCommand.runCommand_completes ⟨hcmd, h0, h1, hc0, hc1, htables⟩
  exact ⟨_, _, hs, hu, rfl, rfl, rfl, rfl, rfl, rfl, rfl, rfl, rfl⟩

/-- Settles O33: the command is the same after the write, and its completion commutes with the write. -/
theorem operandWritesDoNotDisturbRunningCommand : Obligations.OperandWritesDoNotDisturbRunningCommand := by
  intro s t r v hr hrun
  obtain ⟨c, hs, hu⟩ := (sameCommand_writeReg_operand hr v s).runCommand_completes
  obtain rfl := Host.Outcome.next.inj (hs.symm.trans hrun)
  rw [hu, complete_writeReg_operand hr]

/-- Settles O60: the second write finds the engine busy and sets `OVR`, or finds it idle again and is accepted. -/
theorem backToBackCommandsHaveBothOutcomes : Obligations.BackToBackCommandsHaveBothOutcomes := by
  intro s w v es hr hi hovr
  constructor
  · intro hes
    obtain ⟨_, hfirst, hsecond⟩ := steps_command_dropped hr hi hes
    obtain ⟨c, hturn⟩ := step_engineTurn_completes (es := es)
      (s := ((State.accept w { s with schedule := .engineTurn :: es }).answered .done).overrun.answered .done) hr rfl rfl
    exact ⟨_, runs_succ hfirst (runs_succ hsecond (runs_succ hturn (runs_zero _))), rfl, rfl, rfl, rfl⟩
  · intro hes
    obtain ⟨_, c, hfirst, hturn⟩ := steps_command_completed hr hi hes
    obtain ⟨_, _, hsecond, hlast⟩ := steps_command_completed (w := v) (es := es) (s := State.complete c ((State.accept w
      { s with schedule := .access (memWrite s.tables 0x08 v) :: .engineTurn :: es }).answered .done)) hr rfl rfl
    exact ⟨_, runs_succ hfirst (runs_succ hturn (runs_succ hsecond (runs_succ hlast (runs_zero _)))), rfl, hovr, rfl, rfl⟩

end Sys2Proof.Proofs
end
